-- ==== Sys2Proof/Word.lean ====
section
/-! DEFINITION. The word types of the codec core (00_scope R10, R11) and the RGBA8 quadruple (30_encoding R92). -/

namespace Sys2Proof

/-- A byte, `u8` (R10, R11). -/
abbrev Byte := BitVec 8

/-- A packed 16-bit colour or any `u16` (R11, R91). -/
abbrev Half := BitVec 16

/-- A register or a command word, `u32` (R9 `REG_BITS`, R21, R80). -/
abbrev Word := BitVec 32

/-- An RGBA8 quadruple: four unsigned 8-bit channels in the order R, G, B, A (R92). -/
structure Rgba where
  r : Byte
  g : Byte
  b : Byte
  a : Byte
deriving DecidableEq, Repr

end Sys2Proof
end

