-- ==== Sys2Proof/Syntax.lean ====
section
/-! DEFINITION. The 51 operations of 30_encoding R100 as syntax, with the enumerations their words name. -/

namespace Sys2Proof

/-- ImageFormat, the nine native formats (R83). -/
inductive ImageFormat where
  | i4 | i8 | ia4 | ia8 | ia16 | ci4 | ci8 | rgba16 | rgba32
deriving DecidableEq, Repr

/-- ColorType of an external pixel buffer (R84). -/
inductive ColorType where
  | g | ga | rgb | rgba | idx
deriving DecidableEq, Repr

/-- PaletteSize (R86). -/
inductive PaletteSize where
  | s4b | s8b | s16b | s32b
deriving DecidableEq, Repr

/-- One constructor per row of the opcode map (R100). The operands of a row are the fields its mask leaves free: `psz`
is field PSZ, `p` the palette-present bit P, `ctype` and `depth` the source shape. The DEC rows of the formats without
a palette keep `p` and `psz` although their meanings ignore them (R87), so that a word and its instruction carry the
same bits. -/
inductive Instr where
  /-- `PACK16` (R131). -/
  | pack16
  /-- `UNPACK16` (R132). -/
  | unpack16
  /-- `LUMA` (R133). -/
  | luma
  /-- `TLUT.DECODE` (R151). -/
  | tlutDecode (psz : PaletteSize)
  /-- `TLUT.LOOKUP` (R152). -/
  | tlutLookup (psz : PaletteSize)
  /-- `DEC.I4` (R173). -/
  | decI4 (p : Bool) (psz : PaletteSize)
  /-- `DEC.I8` (R174). -/
  | decI8 (p : Bool) (psz : PaletteSize)
  /-- `DEC.IA4` (R170). -/
  | decIA4 (p : Bool) (psz : PaletteSize)
  /-- `DEC.IA8` (R171). -/
  | decIA8 (p : Bool) (psz : PaletteSize)
  /-- `DEC.IA16` (R172). -/
  | decIA16 (p : Bool) (psz : PaletteSize)
  /-- `DEC.CI4` (R168). -/
  | decCI4 (p : Bool) (psz : PaletteSize)
  /-- `DEC.CI8` (R169). -/
  | decCI8 (p : Bool) (psz : PaletteSize)
  /-- `DEC.RGBA16` (R167). -/
  | decRGBA16 (p : Bool) (psz : PaletteSize)
  /-- `DEC.RGBA32` (R166). -/
  | decRGBA32 (p : Bool) (psz : PaletteSize)
  /-- `ENC.RGBA32.RGBA8` (R202). -/
  | encRGBA32RGBA8
  /-- `ENC.RGBA16.RGBA8` (R203). -/
  | encRGBA16RGBA8
  /-- `ENC.I4.G4` (R204). -/
  | encI4G4
  /-- `ENC.I4.G8` (R205). -/
  | encI4G8
  /-- `ENC.I4.GA8` (R206). -/
  | encI4GA8
  /-- `ENC.I4.RGB8` (R207). -/
  | encI4RGB8
  /-- `ENC.I4.RGBA8` (R208). -/
  | encI4RGBA8
  /-- `ENC.I8.G8` (R209). -/
  | encI8G8
  /-- `ENC.I8.G4` (R210). -/
  | encI8G4
  /-- `ENC.I8.GA8` (R211). -/
  | encI8GA8
  /-- `ENC.I8.RGB8` (R212). -/
  | encI8RGB8
  /-- `ENC.I8.RGBA8` (R213). -/
  | encI8RGBA8
  /-- `ENC.IA4.GA8` (R214). -/
  | encIA4GA8
  /-- `ENC.IA8.GA8` (R215). -/
  | encIA8GA8
  /-- `ENC.IA16.GA8` (R216). -/
  | encIA16GA8
  /-- `ENC.CI4.IDX4` (R217). -/
  | encCI4IDX4
  /-- `ENC.CI4.IDX8` (R218). -/
  | encCI4IDX8
  /-- `ENC.CI8.IDX8` (R219). -/
  | encCI8IDX8
  /-- `ENC.CI8.IDX4` (R220). -/
  | encCI8IDX4
  /-- `ENC.I4.other` (R221). -/
  | encI4Other (ctype : ColorType) (depth : BitVec 5)
  /-- `ENC.I8.other` (R221). -/
  | encI8Other (ctype : ColorType) (depth : BitVec 5)
  /-- `ENC.IA4.other` (R221). -/
  | encIA4Other (ctype : ColorType) (depth : BitVec 5)
  /-- `ENC.IA8.other` (R221). -/
  | encIA8Other (ctype : ColorType) (depth : BitVec 5)
  /-- `ENC.IA16.other` (R221). -/
  | encIA16Other (ctype : ColorType) (depth : BitVec 5)
  /-- `ENC.CI4.other` (R221). -/
  | encCI4Other (ctype : ColorType) (depth : BitVec 5)
  /-- `ENC.CI8.other` (R221). -/
  | encCI8Other (ctype : ColorType) (depth : BitVec 5)
  /-- `ENC.RGBA16.other` (R221). -/
  | encRGBA16Other (ctype : ColorType) (depth : BitVec 5)
  /-- `ENC.RGBA32.other` (R221). -/
  | encRGBA32Other (ctype : ColorType) (depth : BitVec 5)
  /-- `META.I4` (R250). -/
  | metaI4
  /-- `META.I8` (R250). -/
  | metaI8
  /-- `META.IA4` (R250). -/
  | metaIA4
  /-- `META.IA8` (R250). -/
  | metaIA8
  /-- `META.IA16` (R250). -/
  | metaIA16
  /-- `META.CI4` (R250). -/
  | metaCI4
  /-- `META.CI8` (R250). -/
  | metaCI8
  /-- `META.RGBA16` (R250). -/
  | metaRGBA16
  /-- `META.RGBA32` (R250). -/
  | metaRGBA32
deriving DecidableEq, Repr

end Sys2Proof
end

