-- ==== Sys2Proof/WellFormed.lean ====
section
/-! DEFINITION. The whitelist of source shapes (30_encoding R100) and the one well-formedness check: a catch-all
`ENC.fmt.other` names a shape that is on no row of the whitelist (43_encode R221). -/

namespace Sys2Proof

/-- The nineteen accepted (format, colour type, depth) triples, in the order of R100. -/
def whitelist : List (ImageFormat × ColorType × Nat) :=
  [(.rgba32, .rgba, 8), (.rgba16, .rgba, 8),
   (.i4, .g, 4), (.i4, .g, 8), (.i4, .ga, 8), (.i4, .rgb, 8), (.i4, .rgba, 8),
   (.i8, .g, 8), (.i8, .g, 4), (.i8, .ga, 8), (.i8, .rgb, 8), (.i8, .rgba, 8),
   (.ia4, .ga, 8), (.ia8, .ga, 8), (.ia16, .ga, 8),
   (.ci4, .idx, 4), (.ci4, .idx, 8), (.ci8, .idx, 8), (.ci8, .idx, 4)]

/-- Whether an encode of the source shape to the format is accepted (R200). -/
def accepted (fmt : ImageFormat) (ctype : ColorType) (depth : BitVec 5) : Bool :=
  whitelist.contains (fmt, ctype, depth.toNat)

/-- An instruction that some command word stands for. -/
def Instr.wellFormed : Instr → Bool
  | .pack16 => true
  | .unpack16 => true
  | .luma => true
  | .tlutDecode _ => true
  | .tlutLookup _ => true
  | .decI4 _ _ => true
  | .decI8 _ _ => true
  | .decIA4 _ _ => true
  | .decIA8 _ _ => true
  | .decIA16 _ _ => true
  | .decCI4 _ _ => true
  | .decCI8 _ _ => true
  | .decRGBA16 _ _ => true
  | .decRGBA32 _ _ => true
  | .encRGBA32RGBA8 => true
  | .encRGBA16RGBA8 => true
  | .encI4G4 => true
  | .encI4G8 => true
  | .encI4GA8 => true
  | .encI4RGB8 => true
  | .encI4RGBA8 => true
  | .encI8G8 => true
  | .encI8G4 => true
  | .encI8GA8 => true
  | .encI8RGB8 => true
  | .encI8RGBA8 => true
  | .encIA4GA8 => true
  | .encIA8GA8 => true
  | .encIA16GA8 => true
  | .encCI4IDX4 => true
  | .encCI4IDX8 => true
  | .encCI8IDX8 => true
  | .encCI8IDX4 => true
  | .encI4Other ctype depth => !accepted .i4 ctype depth
  | .encI8Other ctype depth => !accepted .i8 ctype depth
  | .encIA4Other ctype depth => !accepted .ia4 ctype depth
  | .encIA8Other ctype depth => !accepted .ia8 ctype depth
  | .encIA16Other ctype depth => !accepted .ia16 ctype depth
  | .encCI4Other ctype depth => !accepted .ci4 ctype depth
  | .encCI8Other ctype depth => !accepted .ci8 ctype depth
  | .encRGBA16Other ctype depth => !accepted .rgba16 ctype depth
  | .encRGBA32Other ctype depth => !accepted .rgba32 ctype depth
  | .metaI4 => true
  | .metaI8 => true
  | .metaIA4 => true
  | .metaIA8 => true
  | .metaIA16 => true
  | .metaCI4 => true
  | .metaCI8 => true
  | .metaRGBA16 => true
  | .metaRGBA32 => true

end Sys2Proof
end

