-- ==== Sys2Proof/Decode.lean ====
section
/-! DEFINITION. The command decoder of 30_encoding R81, total on all 2^32 words and rejecting by name, and after it
the encoder, written from the same field table (R80) and opcode map (R100). -/

namespace Sys2Proof

/-- Why a command word is reserved: the clauses of R88. Every one leads to the error `IllegalCommand` (R265), a next
state and not a stop of the machine. -/
inductive Reserved where
  /-- `ZERO != 0`. -/
  | zeroField
  /-- `CLASS` 5 to 15. -/
  | classCode
  /-- `SEL` above the last operation or format of its class. -/
  | selCode
  /-- A non-zero `CTYPE` or `DEPTH` outside ENC. -/
  | shapeBits
  /-- `CTYPE` 5 to 7 in ENC. -/
  | colorTypeCode
  /-- A non-zero `P` or `PSZ` in PRIM, ENC or META. -/
  | paletteBits
  /-- `P = 0` in TLUT. -/
  | paletteAbsent
deriving DecidableEq, Repr

/-! Fields of a command word (R80). -/

def classField (c : Word) : BitVec 4 := c.extractLsb' 28 4
def selField (c : Word) : BitVec 4 := c.extractLsb' 24 4
def ctypeField (c : Word) : BitVec 3 := c.extractLsb' 21 3
def depthField (c : Word) : BitVec 5 := c.extractLsb' 16 5
def pField (c : Word) : BitVec 1 := c.extractLsb' 15 1
def pszField (c : Word) : BitVec 2 := c.extractLsb' 13 2
def zeroField (c : Word) : BitVec 13 := c.extractLsb' 0 13

/-- ImageFormat codes 0 to 8, 9 to 15 reserved (R83). -/
def formatOf (sel : BitVec 4) : Option ImageFormat :=
  match sel.toNat with
  | 0 => some .i4
  | 1 => some .i8
  | 2 => some .ia4
  | 3 => some .ia8
  | 4 => some .ia16
  | 5 => some .ci4
  | 6 => some .ci8
  | 7 => some .rgba16
  | 8 => some .rgba32
  | _ => none

/-- ColorType codes 0 to 4, 5 to 7 reserved (R84). -/
def colorTypeOf (ctype : BitVec 3) : Option ColorType :=
  match ctype.toNat with
  | 0 => some .g
  | 1 => some .ga
  | 2 => some .rgb
  | 3 => some .rgba
  | 4 => some .idx
  | _ => none

/-- PaletteSize codes 0 to 3 (R86). -/
def paletteSizeOf (psz : BitVec 2) : PaletteSize :=
  match psz.toNat with
  | 0 => .s4b
  | 1 => .s8b
  | 2 => .s16b
  | _ => .s32b

/-- The `DEC` operation of a format (R81, class 2). -/
def decInstr (fmt : ImageFormat) (p : Bool) (psz : PaletteSize) : Instr :=
  match fmt with
  | .i4 => .decI4 p psz
  | .i8 => .decI8 p psz
  | .ia4 => .decIA4 p psz
  | .ia8 => .decIA8 p psz
  | .ia16 => .decIA16 p psz
  | .ci4 => .decCI4 p psz
  | .ci8 => .decCI8 p psz
  | .rgba16 => .decRGBA16 p psz
  | .rgba32 => .decRGBA32 p psz

/-- The `ENC` operation of a target format and a source shape: the rows of R100 in their order, the catch-all of the
format last (R81, class 3). -/
def encInstr (fmt : ImageFormat) (ctype : ColorType) (depth : BitVec 5) : Instr :=
  match fmt, ctype, depth.toNat with
  | .rgba32, .rgba, 8 => .encRGBA32RGBA8
  | .rgba16, .rgba, 8 => .encRGBA16RGBA8
  | .i4, .g, 4 => .encI4G4
  | .i4, .g, 8 => .encI4G8
  | .i4, .ga, 8 => .encI4GA8
  | .i4, .rgb, 8 => .encI4RGB8
  | .i4, .rgba, 8 => .encI4RGBA8
  | .i8, .g, 8 => .encI8G8
  | .i8, .g, 4 => .encI8G4
  | .i8, .ga, 8 => .encI8GA8
  | .i8, .rgb, 8 => .encI8RGB8
  | .i8, .rgba, 8 => .encI8RGBA8
  | .ia4, .ga, 8 => .encIA4GA8
  | .ia8, .ga, 8 => .encIA8GA8
  | .ia16, .ga, 8 => .encIA16GA8
  | .ci4, .idx, 4 => .encCI4IDX4
  | .ci4, .idx, 8 => .encCI4IDX8
  | .ci8, .idx, 8 => .encCI8IDX8
  | .ci8, .idx, 4 => .encCI8IDX4
  | .i4, ct, _ => .encI4Other ct depth
  | .i8, ct, _ => .encI8Other ct depth
  | .ia4, ct, _ => .encIA4Other ct depth
  | .ia8, ct, _ => .encIA8Other ct depth
  | .ia16, ct, _ => .encIA16Other ct depth
  | .ci4, ct, _ => .encCI4Other ct depth
  | .ci8, ct, _ => .encCI8Other ct depth
  | .rgba16, ct, _ => .encRGBA16Other ct depth
  | .rgba32, ct, _ => .encRGBA32Other ct depth

/-- The `META` operation of a format (R81, class 4). -/
def metaInstr (fmt : ImageFormat) : Instr :=
  match fmt with
  | .i4 => .metaI4
  | .i8 => .metaI8
  | .ia4 => .metaIA4
  | .ia8 => .metaIA8
  | .ia16 => .metaIA16
  | .ci4 => .metaCI4
  | .ci8 => .metaCI8
  | .rgba16 => .metaRGBA16
  | .rgba32 => .metaRGBA32

/-- Class 0 (R81): `CTYPE`, `DEPTH`, `P` and `PSZ` must be 0. -/
def decodePrim (c : Word) : Except Reserved Instr :=
  if ctypeField c ≠ 0 ∨ depthField c ≠ 0 then .error .shapeBits
  else if pField c ≠ 0 ∨ pszField c ≠ 0 then .error .paletteBits
  else
    match (selField c).toNat with
    | 0 => .ok .pack16
    | 1 => .ok .unpack16
    | 2 => .ok .luma
    | _ => .error .selCode

/-- Class 1 (R81): `CTYPE` and `DEPTH` must be 0 and `P` must be 1. -/
def decodeTlut (c : Word) : Except Reserved Instr :=
  if ctypeField c ≠ 0 ∨ depthField c ≠ 0 then .error .shapeBits
  else if pField c = 0 then .error .paletteAbsent
  else
    match (selField c).toNat with
    | 0 => .ok (.tlutDecode (paletteSizeOf (pszField c)))
    | 1 => .ok (.tlutLookup (paletteSizeOf (pszField c)))
    | _ => .error .selCode

/-- Class 2 (R81): `CTYPE` and `DEPTH` must be 0. -/
def decodeDec (c : Word) : Except Reserved Instr :=
  if ctypeField c ≠ 0 ∨ depthField c ≠ 0 then .error .shapeBits
  else
    match formatOf (selField c) with
    | some fmt => .ok (decInstr fmt (pField c == 1) (paletteSizeOf (pszField c)))
    | none => .error .selCode

/-- Class 3 (R81): `P` and `PSZ` must be 0, `CTYPE` at most 4, `DEPTH` is any value. -/
def decodeEnc (c : Word) : Except Reserved Instr :=
  if pField c ≠ 0 ∨ pszField c ≠ 0 then .error .paletteBits
  else
    match formatOf (selField c), colorTypeOf (ctypeField c) with
    | some fmt, some ct => .ok (encInstr fmt ct (depthField c))
    | none, _ => .error .selCode
    | some _, none => .error .colorTypeCode

/-- Class 4 (R81): `CTYPE`, `DEPTH`, `P` and `PSZ` must be 0. -/
def decodeMeta (c : Word) : Except Reserved Instr :=
  if ctypeField c ≠ 0 ∨ depthField c ≠ 0 then .error .shapeBits
  else if pField c ≠ 0 ∨ pszField c ≠ 0 then .error .paletteBits
  else
    match formatOf (selField c) with
    | some fmt => .ok (metaInstr fmt)
    | none => .error .selCode

/-- The operation a command word selects, or the clause of R88 that reserves it (R81). -/
def decode (c : Word) : Except Reserved Instr :=
  if zeroField c ≠ 0 then .error .zeroField
  else
    match (classField c).toNat with
    | 0 => decodePrim c
    | 1 => decodeTlut c
    | 2 => decodeDec c
    | 3 => decodeEnc c
    | 4 => decodeMeta c
    | _ => .error .classCode

/-- The decoder on a table word: bit 0 of `w` is bit 0 of the command word, and bits at or above `nbits` are 0. A
command is the value written to CMD and lies in no buffer, so no byte order enters (R55, R68). Log 14. -/
def decodeTableWord (nbits w : Nat) : Option Instr :=
  match decode (BitVec.ofNat 32 (w % 2 ^ nbits)) with
  | .ok i => some i
  | .error _ => none

/-! The encoder. -/

/-- ImageFormat codes (R83). -/
def ImageFormat.code : ImageFormat → BitVec 4
  | .i4 => 0
  | .i8 => 1
  | .ia4 => 2
  | .ia8 => 3
  | .ia16 => 4
  | .ci4 => 5
  | .ci8 => 6
  | .rgba16 => 7
  | .rgba32 => 8

/-- ColorType codes (R84). -/
def ColorType.code : ColorType → BitVec 3
  | .g => 0
  | .ga => 1
  | .rgb => 2
  | .rgba => 3
  | .idx => 4

/-- PaletteSize codes (R86). -/
def PaletteSize.code : PaletteSize → BitVec 2
  | .s4b => 0
  | .s8b => 1
  | .s16b => 2
  | .s32b => 3

/-- A command word from its fields, highest first (R80). -/
def commandWord (cls sel : BitVec 4) (ctype : BitVec 3) (depth : BitVec 5) (p : BitVec 1) (psz : BitVec 2) : Word :=
  cls ++ sel ++ ctype ++ depth ++ p ++ psz ++ 0#13

/-- `0x10008000 | (SEL << 24) | (PSZ << 13)` (R151, R152). -/
def tlutWord (sel : BitVec 4) (psz : PaletteSize) : Word :=
  commandWord 1 sel 0 0 1 psz.code

/-- `0x20000000 | (fmt << 24) | (P << 15) | (PSZ << 13)` (R165). -/
def decWord (fmt : ImageFormat) (p : Bool) (psz : PaletteSize) : Word :=
  commandWord 2 fmt.code 0 0 (BitVec.ofBool p) psz.code

/-- `0x30000000 | (fmt << 24) | (CTYPE << 21) | (DEPTH << 16)` (R221). -/
def encWord (fmt : ImageFormat) (ctype : ColorType) (depth : BitVec 5) : Word :=
  commandWord 3 fmt.code ctype.code depth 0 0

/-- `0x40000000 | (fmt << 24)` (R250). -/
def metaWord (fmt : ImageFormat) : Word :=
  commandWord 4 fmt.code 0 0 0 0

/-- The command word of an operation (R100). -/
def encode : Instr → Word
  | .pack16 => commandWord 0 0 0 0 0 0
  | .unpack16 => commandWord 0 1 0 0 0 0
  | .luma => commandWord 0 2 0 0 0 0
  | .tlutDecode psz => tlutWord 0 psz
  | .tlutLookup psz => tlutWord 1 psz
  | .decI4 p psz => decWord .i4 p psz
  | .decI8 p psz => decWord .i8 p psz
  | .decIA4 p psz => decWord .ia4 p psz
  | .decIA8 p psz => decWord .ia8 p psz
  | .decIA16 p psz => decWord .ia16 p psz
  | .decCI4 p psz => decWord .ci4 p psz
  | .decCI8 p psz => decWord .ci8 p psz
  | .decRGBA16 p psz => decWord .rgba16 p psz
  | .decRGBA32 p psz => decWord .rgba32 p psz
  | .encRGBA32RGBA8 => encWord .rgba32 .rgba 8
  | .encRGBA16RGBA8 => encWord .rgba16 .rgba 8
  | .encI4G4 => encWord .i4 .g 4
  | .encI4G8 => encWord .i4 .g 8
  | .encI4GA8 => encWord .i4 .ga 8
  | .encI4RGB8 => encWord .i4 .rgb 8
  | .encI4RGBA8 => encWord .i4 .rgba 8
  | .encI8G8 => encWord .i8 .g 8
  | .encI8G4 => encWord .i8 .g 4
  | .encI8GA8 => encWord .i8 .ga 8
  | .encI8RGB8 => encWord .i8 .rgb 8
  | .encI8RGBA8 => encWord .i8 .rgba 8
  | .encIA4GA8 => encWord .ia4 .ga 8
  | .encIA8GA8 => encWord .ia8 .ga 8
  | .encIA16GA8 => encWord .ia16 .ga 8
  | .encCI4IDX4 => encWord .ci4 .idx 4
  | .encCI4IDX8 => encWord .ci4 .idx 8
  | .encCI8IDX8 => encWord .ci8 .idx 8
  | .encCI8IDX4 => encWord .ci8 .idx 4
  | .encI4Other ctype depth => encWord .i4 ctype depth
  | .encI8Other ctype depth => encWord .i8 ctype depth
  | .encIA4Other ctype depth => encWord .ia4 ctype depth
  | .encIA8Other ctype depth => encWord .ia8 ctype depth
  | .encIA16Other ctype depth => encWord .ia16 ctype depth
  | .encCI4Other ctype depth => encWord .ci4 ctype depth
  | .encCI8Other ctype depth => encWord .ci8 ctype depth
  | .encRGBA16Other ctype depth => encWord .rgba16 ctype depth
  | .encRGBA32Other ctype depth => encWord .rgba32 ctype depth
  | .metaI4 => metaWord .i4
  | .metaI8 => metaWord .i8
  | .metaIA4 => metaWord .ia4
  | .metaIA8 => metaWord .ia8
  | .metaIA16 => metaWord .ia16
  | .metaCI4 => metaWord .ci4
  | .metaCI8 => metaWord .ci8
  | .metaRGBA16 => metaWord .rgba16
  | .metaRGBA32 => metaWord .rgba32

end Sys2Proof
end

