-- ==== Sys2Proof/Config.lean ====
section
/-! DEFINITION. The configuration record of 00_scope R9 with the values R9 gives, and the free values: constants
without a body, for what the spec leaves unspecified. -/

namespace Sys2Proof

/-- The three byte spaces (20_memory R50). -/
inductive Space where
  | src
  | pal
  | dst
deriving DecidableEq, Repr

/-- The readings of `ENC.I8.G4` (00_scope R9 `ENC_I8_G4_MODE`, 43_encode R210). -/
inductive I8G4Mode where
  | expandShift
  | expandReplicate
  | fold
deriving DecidableEq, Repr

/-- The parameter `LUMA` (00_scope R9, 93_implementation_defined U6): the exact integer formula of R133, or some other
intensity function, of which only the three values the source fixes are known. The number tells such functions
apart. -/
inductive LumaRule where
  | exactIntegers
  | other (n : Nat)
deriving DecidableEq, Repr

/-- The parameters of R9. The number of formats and the widths of the registers and dimensions are in the types; the
enumeration codes are the decoder's. -/
structure Config where
  /-- `SRC_CAP`: capacity of SRC in bytes, `none` when unbounded (D5). -/
  srcCap : Option Nat
  /-- `PAL_CAP`: capacity of PAL in bytes, `none` when unbounded (D5). -/
  palCap : Option Nat
  /-- `DST_CAP`: capacity of DST in bytes, `none` when unbounded (D5). -/
  dstCap : Option Nat
  /-- `N_S4B`: entry count of palette size S4B (R86). -/
  nS4B : Nat
  /-- `N_S8B`: entry count of palette size S8B (R86). -/
  nS8B : Nat
  /-- `N_S16B`: entry count of palette size S16B (R86, D11). -/
  nS16B : Nat
  /-- `N_S32B`: entry count of palette size S32B (R86, D11). -/
  nS32B : Nat
  /-- `LUMA` (R133, D13, U6). -/
  lumaRule : LumaRule
  /-- `I4_RGBA_DOUBLE_READ` (R208, D14). -/
  i4RgbaDoubleRead : Bool
  /-- `ENC_I8_G4_MODE` (R210, D15). -/
  encI8G4Mode : I8G4Mode
  /-- `IA8_ENC_MASK_GRAY` (R215, D16). -/
  ia8EncMaskGray : Bool
  /-- `PACK_LINEAR`: 4-bit pixels are packed across row ends (R59, D6, U10). -/
  packLinear : Bool
  /-- `IA4_HIGH_FIRST`: the first pixel of an IA4 byte is its high nibble (R56, D7). -/
  ia4HighFirst : Bool
  /-- `PLACEHOLDER_PALETTE`: the palette of an exported indexed PNG, `none` when open. No rule uses it (R251, D26). -/
  placeholderPalette : Option (List Byte)
deriving DecidableEq, Repr

/-- The column "value used" of R9. -/
def Config.default : Config where
  srcCap := none
  palCap := none
  dstCap := none
  nS4B := 16
  nS8B := 256
  nS16B := 4096
  nS32B := 65536
  lumaRule := .exactIntegers
  i4RgbaDoubleRead := true
  encI8G4Mode := .expandShift
  ia8EncMaskGray := false
  packLinear := true
  ia4HighFirst := true
  placeholderPalette := none

/-- Free value: the byte an unlisted offset of a buffer holds (10_state R34, 60_exceptions R270, U9, U11). The second
argument names the occasion on which the buffer's contents became unspecified, the third is the offset. DESIGN CHOICE
of form, log 4. Safe: nothing constrains it. -/
opaque Config.unspecifiedByte : Space → Nat → Nat → Byte

/-- Free value: what `DST_LEN` holds after an operation whose output has the given number of bytes, 2^32 or more, for
which the spec states no register value. DESIGN CHOICE, log 7. Safe: nothing constrains it. -/
opaque Config.unstatedLength : Nat → Word

/-- Free value: the intensity functions other than the exact one, off the three points the source fixes (U6, log 8).
Safe: nothing constrains it. -/
opaque Config.otherLuma : Nat → Byte → Byte → Byte → Byte

/-- Free value: where a 4-bit image of the given odd width has the pixel of the given index when `PACK_LINEAR` is false
and the pixel lies below the first row, counted in half bytes: the source does not say (N6, U10, log 10). Safe: nothing
constrains it. -/
opaque Config.unstatedPosition : Nat → Nat → Nat

end Sys2Proof
end

