-- ==== Sys2Proof/Machine/State.lean ====
section
/-! DEFINITION. The state of the codec core (10_state), the host's side of it, the reasons a step can stop, and the
state after reset (R34, R290). -/

namespace Sys2Proof.Machine

/-- `STATUS.STATE` (R25). -/
inductive RunState where
  | idle
  | done
  | err
deriving DecidableEq, Repr

/-- The error kinds of 60_exceptions R260 with the information R263 says they carry. An error is not a stop of the
machine: it is recorded in `STATUS` and `ERRINFO` by `raiseError` (R270). -/
inductive OpError where
  | truncatedInput
  | missingPalette
  | invalidSourceShape (ctype : ColorType) (depth : BitVec 5)
  | paletteIndexOutOfRange
  | io
  | illegalCommand
deriving DecidableEq, Repr

/-- One byte space (20_memory R50). `cells` lists the bytes something has written, at strictly rising offsets. An offset
not listed has no recorded value: it holds the free value `Config.unspecifiedByte`, of which `epoch` names the
occasion on which the space's contents last became unspecified (log 4). -/
structure Memory where
  cells : List Host.Cell
  epoch : Nat
deriving DecidableEq, Repr

/-- What the host can do between operations (R20, R30, R51, R290). Register numbers and offsets are plain numbers, so
that the accesses the spec gives no behaviour can be written down and refused. -/
inductive HostAction where
  | writeReg (n : Nat) (v : Word)
  | readReg (n : Nat)
  | writeByte (sp : Space) (off : Nat) (b : Byte)
  | readByte (sp : Space) (off : Nat)
  | reset
deriving DecidableEq, Repr

/-- What a host read returned (log 12). -/
inductive Reply where
  | reg (n : Nat) (v : Word)
  | byte (sp : Space) (off : Nat) (b : Byte)
deriving DecidableEq, Repr

/-- The whole machine: ten registers (R21), three buffers (R50), the configuration (R9), and the model's own fields
`freeIdx` (log 4), `host` (log 1) and `replies` (log 12). -/
structure State where
  cmd : Word
  width : Word
  height : Word
  srcLen : Word
  palLen : Word
  arg : Word
  res : Word
  status : Word
  errInfo : Word
  dstLen : Word
  src : Memory
  pal : Memory
  dst : Memory
  config : Config
  freeIdx : Nat
  host : List HostAction
  replies : List Reply
deriving DecidableEq, Repr

/-- The stops of the machine. No operation ends in one. -/
inductive Fault where
  /-- Raised by a host byte access at an offset at or beyond a finite capacity: the byte does not exist (R9, D5,
  log 9). Safe: the machine stops. -/
  | noSuchByte (sp : Space) (off : Nat)
deriving DecidableEq, Repr

/-- What has no meaning in the spec. No operation of the opcode map ends in one. -/
inductive Refusal where
  /-- An operation without a meaning in this model. Raised by no arm: all 51 have one. Safe. -/
  | notModelled (mnemonic : String)
  /-- A host write to `RES`, `STATUS`, `ERRINFO` or `DST_LEN` (R30, U8). Safe. -/
  | readOnlyRegister (n : Nat)
  /-- A host access to a register number above 9 (R30, U8). Safe. -/
  | noSuchRegister (n : Nat)
  /-- A host write of a length above the space's capacity (R23, U9). Safe. -/
  | lengthAboveCapacity (sp : Space)
  /-- A host write to DST, which R51 does not give the host (log 9). Safe. -/
  | hostWriteToDst (off : Nat)
deriving DecidableEq, Repr

/-- A buffer of which no byte is recorded. -/
def Memory.unwritten (epoch : Nat) : Memory where
  cells := []
  epoch := epoch

/-- The machine right after reset: every register 0, every buffer unspecified (R34, R290), the configuration at R9's
values, no host action pending (log 1). -/
def State.reset : State where
  cmd := 0
  width := 0
  height := 0
  srcLen := 0
  palLen := 0
  arg := 0
  res := 0
  status := 0
  errInfo := 0
  dstLen := 0
  src := Memory.unwritten 0
  pal := Memory.unwritten 0
  dst := Memory.unwritten 0
  config := Config.default
  freeIdx := 1
  host := []
  replies := []

end Sys2Proof.Machine
end

