-- ==== Sys2Proof/Machine/Flags.lean ====
section
/-! DEFINITION. The block has no arithmetic flags (R25, R137). Its status bits are the two fields of `STATUS` (R25) and
the two of `ERRINFO` (R26). -/

namespace Sys2Proof.Machine

/-- The codes of `STATUS.STATE` (R25). -/
def RunState.code : RunState → BitVec 2
  | .idle => 0
  | .done => 1
  | .err => 2

/-- The codes of `STATUS.ERRKIND` (R25, R260). Code 0 is `None`. -/
def OpError.code : OpError → BitVec 3
  | .truncatedInput => 1
  | .missingPalette => 2
  | .invalidSourceShape _ _ => 3
  | .paletteIndexOutOfRange => 4
  | .io => 5
  | .illegalCommand => 6

/-- `STATUS` from its fields, every other bit 0 (R25). -/
def statusWord (run : RunState) (errKind : BitVec 3) : Word :=
  0#25 ++ errKind ++ 0#2 ++ run.code

/-- `STATUS.STATE`, bits 1:0 (R25). -/
def stateField (status : Word) : BitVec 2 := status.extractLsb' 0 2

/-- `STATUS.ERRKIND`, bits 6:4 (R25). -/
def errKindField (status : Word) : BitVec 3 := status.extractLsb' 4 3

/-- `(CTYPE << 5) | DEPTH`, every other bit 0 (R26, R263). -/
def shapeWord (ctype : ColorType) (depth : BitVec 5) : Word :=
  0#24 ++ ctype.code ++ depth

/-- What `ERRINFO` receives: the shape of an `InvalidSourceShape` error, else 0 (R26, R270). -/
def OpError.info : OpError → Word
  | .invalidSourceShape ctype depth => shapeWord ctype depth
  | .truncatedInput => 0
  | .missingPalette => 0
  | .paletteIndexOutOfRange => 0
  | .io => 0
  | .illegalCommand => 0

/-- `STATUS` after a success (R29). -/
def doneStatus : Word := statusWord .done 0

/-- `STATUS` after an error (R270). -/
def errStatus (e : OpError) : Word := statusWord .err e.code

end Sys2Proof.Machine
end

