-- ==== Sys2Proof/Machine/Operands.lean ====
section
/-! DEFINITION. Operand forms: the fields of `ARG` and `RES` (R96), nibbles and packed colours (R97), the palette sizes
(R86), the bits per pixel and the bytes an image needs (R58, R90), and the reads an operation makes of a buffer
(R53). -/

namespace Sys2Proof.Machine

/-- The quadruple in a register: R in 31:24, G in 23:16, B in 15:8, A in 7:0 (R28, R96). -/
def quadOfWord (w : Word) : Rgba where
  r := w.extractLsb' 24 8
  g := w.extractLsb' 16 8
  b := w.extractLsb' 8 8
  a := w.extractLsb' 0 8

/-- A quadruple as a register value (R28, R96). -/
def quadToWord (q : Rgba) : Word := q.r ++ q.g ++ q.b ++ q.a

/-- The bytes of a quadruple at increasing offsets, R first (R92). -/
def quadBytes (q : Rgba) : List Byte := [q.r, q.g, q.b, q.a]

/-- The 16-bit operand `ARG[15:0]` (R96). -/
def halfOfWord (w : Word) : Half := w.extractLsb' 0 16

/-- The index operand `ARG[7:0]` (R96). -/
def indexOfWord (w : Word) : Byte := w.extractLsb' 0 8

/-- `hi(v) = v & 0xF0` (43_encode section 2). -/
def hiMask (v : Byte) : Byte := v &&& 0xF0#8

/-- `v & 0x0F` (R97). -/
def loMask (v : Byte) : Byte := v &&& 0x0F#8

/-- Two bytes as a big-endian 16-bit value: the byte at the lower offset is the more significant (R55). -/
def halfOfBytes (b0 b1 : Byte) : Half := b0 ++ b1

/-- The bytes of a 16-bit value at increasing offsets (R54, R55). -/
def halfBytes (v : Half) : List Byte := [v.extractLsb' 8 8, v.extractLsb' 0 8]

/-- Entry count of a palette size (R86). -/
def entries (cfg : Config) : PaletteSize → Nat
  | .s4b => cfg.nS4B
  | .s8b => cfg.nS8B
  | .s16b => cfg.nS16B
  | .s32b => cfg.nS32B

/-- Bits per pixel of a native format (R90). -/
def bitsPerPixel : ImageFormat → Nat
  | .i4 => 4
  | .i8 => 8
  | .ia4 => 4
  | .ia8 => 8
  | .ia16 => 16
  | .ci4 => 4
  | .ci8 => 8
  | .rgba16 => 16
  | .rgba32 => 32

/-- `need(fmt, NPIX) = ceil(NPIX * bpp / 8)` (R58). The meanings do not consult it: they find a short read when they
reach it. The statements compare the two. -/
def needBytes (fmt : ImageFormat) (npix : Nat) : Nat := (npix * bitsPerPixel fmt + 7) / 8

/-- What an operation sees of a buffer: the number of valid bytes and the byte at each offset (R14, R23). -/
structure View where
  len : Nat
  byte : Nat → Byte

/-- A byte list as a view. -/
def View.ofList (bs : List Byte) : View where
  len := bs.length
  byte := fun k => bs.getD k 0

/-- `n` bytes from offset `off`, or the short read of R53. -/
def View.window (v : View) (off n : Nat) : Except OpError (Nat → Byte) :=
  if off + n ≤ v.len then .ok (fun t => v.byte (off + t)) else .error .truncatedInput

/-- `MemRead(S, off, 1)` (R53). -/
def View.read8 (v : View) (off : Nat) : Except OpError Byte :=
  (v.window off 1).map (fun c : Nat → Byte => c 0)

/-- `MemRead(S, off, 2)`, big-endian (R53, R55). -/
def View.read16 (v : View) (off : Nat) : Except OpError Half :=
  (v.window off 2).map (fun c : Nat → Byte => halfOfBytes (c 0) (c 1))

/-- `MemRead(S, off, 4)`, big-endian (R53, R55). -/
def View.read32 (v : View) (off : Nat) : Except OpError Word :=
  (v.window off 4).map (fun c : Nat → Byte => c 0 ++ c 1 ++ c 2 ++ c 3)

/-- The half of a byte that holds a 4-bit pixel (R56, R59, R97). -/
def pixelNibble (highFirst : Bool) (p : Nat) (b : Byte) : Byte :=
  if (p % 2 == 0) == highFirst then b >>> 4 else loMask b

/-- Where pixel `p` of a 4-bit image of width `w` lies, in half bytes from offset 0: at `p` with `PACK_LINEAR` (R59), in
an even width and in the first row, on which every reading of the source agrees (U10); else at a free value (N6, U10;
log 10). -/
def nibblePosition (cfg : Config) (w p : Nat) : Nat :=
  if cfg.packLinear || w % 2 == 0 || decide (p < w) then p else Config.unstatedPosition w p

/-- The nibble at half-byte position `p`: in the byte at offset `p >> 1`, an even position in the high nibble when
`highFirst` (R56, R59). -/
def View.nibble (v : View) (highFirst : Bool) (p : Nat) : Except OpError Byte :=
  (v.read8 (p / 2)).map (pixelNibble highFirst p)

end Sys2Proof.Machine
end

