-- ==== Sys2Proof/Machine/Ops.lean ====
section
/-! DEFINITION. The shared operations: buffer reads and writes, the output cursor (R12, R54), taking an error (R270) and
leaving one (R271), success (R29), and the start of an operation (R29). -/

namespace Sys2Proof.Machine

/-- What the cells record at an offset. -/
def cellAt : List Host.Cell → Nat → Option Byte
  | [], _ => none
  | c :: cs, a => if c.1 = a then some c.2 else cellAt cs a

/-- The recorded byte at an offset, `none` where nothing has been written since the contents became unspecified. -/
def Memory.recorded (m : Memory) (a : Nat) : Option Byte := cellAt m.cells a

/-- The byte at an offset: the recorded one, else the free value (R34, R270, U9, U11; log 4). -/
def Memory.byteAt (sp : Space) (m : Memory) (a : Nat) : Byte :=
  (m.recorded a).getD (Config.unspecifiedByte sp m.epoch a)

/-- Bytes laid out from an offset on. -/
def cellsFrom : Nat → List Byte → List Host.Cell
  | _, [] => []
  | off, b :: bs => (off, b) :: cellsFrom (off + 1) bs

/-- Stores bytes at consecutive offsets and leaves every other byte alone (R54). -/
def Memory.store (m : Memory) (off : Nat) (bs : List Byte) : Memory where
  cells :=
    m.cells.filter (fun c => c.1 < off) ++ cellsFrom off bs ++ m.cells.filter (fun c => off + bs.length ≤ c.1)
  epoch := m.epoch

/-- The canonical form of a buffer: strictly rising offsets. An unlisted offset has no recorded value, so no cell can
equal what an unlisted offset reads as. -/
abbrev Memory.wf (m : Memory) : Prop := m.cells.Pairwise (fun x y => x.1 < y.1)

/-- The buffer of a space. -/
def State.memory (s : State) : Space → Memory
  | .src => s.src
  | .pal => s.pal
  | .dst => s.dst

/-- The byte at an offset of a space. -/
def State.byteAt (s : State) (sp : Space) (a : Nat) : Byte := (s.memory sp).byteAt sp a

/-- SRC as an operation sees it: `SRC_LEN` valid bytes (R23). -/
def State.srcView (s : State) : View where
  len := s.srcLen.toNat
  byte := s.byteAt .src

/-- PAL as an operation sees it: `PAL_LEN` valid bytes (R23). -/
def State.palView (s : State) : View where
  len := s.palLen.toNat
  byte := s.byteAt .pal

/-- `NPIX = W * H` in unbounded naturals (R13). -/
def State.pixelCount (s : State) : Nat := s.width.toNat * s.height.toNat

/-- The half-byte position of 4-bit pixel `p` of the image (R59). -/
def State.position (s : State) (p : Nat) : Nat := nibblePosition s.config s.width.toNat p

/-- Whether a number of bytes is within a capacity (R9, R54). -/
def fits (cap : Option Nat) (n : Nat) : Bool :=
  match cap with
  | none => true
  | some c => decide (n ≤ c)

/-- Capacity of a space (R9). -/
def capacity (cfg : Config) : Space → Option Nat
  | .src => cfg.srcCap
  | .pal => cfg.palCap
  | .dst => cfg.dstCap

/-- `remaining` iterations from index `i` on, each emitting the bytes of `item i` at the output cursor `dp`: the first
error of an item, or `Io` at the first emission that does not fit, ends the loop (R12, R54, R175, R266, R267). -/
def emitLoop (cap : Option Nat) (item : Nat → Except OpError (List Byte)) :
    (remaining i dp : Nat) → Except OpError (List Byte)
  | 0, _, _ => .ok []
  | remaining + 1, i, dp =>
    match item i with
    | .error e => .error e
    | .ok bs =>
      if fits cap (dp + bs.length) then
        match emitLoop cap item remaining (i + 1) (dp + bs.length) with
        | .error e => .error e
        | .ok rest => .ok (bs ++ rest)
      else .error .io

/-- An output loop of `n` iterations from offset 0 of DST. -/
def emitAll (cap : Option Nat) (n : Nat) (item : Nat → Except OpError (List Byte)) : Except OpError (List Byte) :=
  emitLoop cap item n 0 0

/-- Copies a view to the output byte by byte (R201 verbatim arms, R151 second loop). -/
def emitVerbatim (cap : Option Nat) (v : View) : Except OpError (List Byte) :=
  emitAll cap v.len (fun k => (v.read8 k).map (fun b : Byte => [b]))

/-- Taking an error (R270): `STATE`, `ERRKIND` and `ERRINFO` record it, `DST_LEN` is 0, every byte of DST is
unspecified afresh (log 5), and everything else is unchanged. -/
def raiseError (e : OpError) (s : State) : State :=
  { s with
    status := errStatus e
    errInfo := e.info
    dstLen := 0
    dst := Memory.unwritten s.freeIdx
    freeIdx := s.freeIdx + 1 }

/-- The start of an operation, which is also the only return from an error (R29, R271): `CMD` holds the word, `DST_LEN`,
`ERRINFO` and `STATUS` are 0. -/
def beginOperation (c : Word) (s : State) : State :=
  { s with cmd := c, dstLen := 0, errInfo := 0, status := 0 }

/-- What `DST_LEN` receives for an output of `n` bytes: `n` where 32 bits hold it, else a free value that depends on the
number of bytes alone (R14, R27, log 7). -/
def lengthWord (n : Nat) : Word :=
  if n < 2 ^ 32 then BitVec.ofNat 32 n else Config.unstatedLength n

/-- Success of an operation that writes the bytes `bs` to DST from offset 0 (R27, R29, R54). Bytes of DST beyond the
output are not written (log 6). -/
def completeOutput (bs : List Byte) (s : State) : State :=
  { s with
    status := doneStatus
    errInfo := 0
    dstLen := lengthWord bs.length
    dst := s.dst.store 0 bs }

/-- Success of an operation that writes `RES` and no byte (R27, R28, R29). -/
def completeResult (v : Word) (s : State) : State :=
  { s with res := v, status := doneStatus, errInfo := 0, dstLen := 0 }

/-- Ends an operation that has an output (R14, R29). -/
def finishOutput (r : Except OpError (List Byte)) (s : State) : Host.Outcome State Fault Refusal :=
  match r with
  | .ok bs => .next (completeOutput bs s)
  | .error e => .next (raiseError e s)

/-- Ends an operation that has a value (R14, R29). -/
def finishResult (r : Except OpError Word) (s : State) : Host.Outcome State Fault Refusal :=
  match r with
  | .ok v => .next (completeResult v s)
  | .error e => .next (raiseError e s)

/-- The reset of 70_reset R290: registers 0, the three buffers unspecified afresh. The configuration and the host's own
side are not the block's to reset (log 13). -/
def resetBlock (s : State) : State :=
  { State.reset with
    src := Memory.unwritten s.freeIdx
    pal := Memory.unwritten s.freeIdx
    dst := Memory.unwritten s.freeIdx
    freeIdx := s.freeIdx + 1
    config := s.config
    host := s.host
    replies := s.replies }

/-- The register of a number (R21). -/
def State.register (s : State) (n : Nat) : Option Word :=
  match n with
  | 0 => some s.cmd
  | 1 => some s.width
  | 2 => some s.height
  | 3 => some s.srcLen
  | 4 => some s.palLen
  | 5 => some s.arg
  | 6 => some s.res
  | 7 => some s.status
  | 8 => some s.errInfo
  | 9 => some s.dstLen
  | _ => none

end Sys2Proof.Machine
end

