-- ==== Sys2Proof/Machine/Color.lean ====
section
/-! DEFINITION. The colour primitives (40_color_primitives). -/

namespace Sys2Proof.Machine

/-- `pack16` (R131): five bits of each colour by truncation, one of alpha by division by 255. -/
def pack16 (q : Rgba) : Half :=
  ((q.r >>> 3).setWidth 16 <<< 11) ||| ((q.g >>> 3).setWidth 16 <<< 6) ||| ((q.b >>> 3).setWidth 16 <<< 1)
    ||| (q.a / 255#8).setWidth 16

/-- `unpack16` (R132). -/
def unpack16 (p : Half) : Rgba where
  r := (((p >>> 11) &&& 0x1F#16) <<< 3).setWidth 8
  g := (((p >>> 6) &&& 0x1F#16) <<< 3).setWidth 8
  b := (((p >>> 1) &&& 0x1F#16) <<< 3).setWidth 8
  a := ((p &&& 1#16) * 255#16).setWidth 8

/-- `luma`: the weighted sum in exact integers, truncated (R133); under any other rule the three values the source fixes
(R136, U6) and else a free value (log 8). -/
def luma (rule : LumaRule) (r g b : Byte) : Byte :=
  match rule with
  | .exactIntegers => BitVec.ofNat 8 ((2126 * r.toNat + 7152 * g.toNat + 722 * b.toNat) / 10000)
  | .other n =>
    if r = 255#8 ∧ g = 255#8 ∧ b = 255#8 then 255#8
    else if r = 0#8 ∧ g = 0#8 ∧ b = 0#8 then 0#8
    else if r = 255#8 ∧ g = 0#8 ∧ b = 0#8 then 54#8
    else Config.otherLuma n r g b

/-- `PACK16` (R131). -/
def execPack16 (s : State) : Host.Outcome State Fault Refusal :=
  finishResult (.ok ((pack16 (quadOfWord s.arg)).setWidth 32)) s

/-- `UNPACK16` (R132). -/
def execUnpack16 (s : State) : Host.Outcome State Fault Refusal :=
  finishResult (.ok (quadToWord (unpack16 (halfOfWord s.arg)))) s

/-- `LUMA` (R133). -/
def execLuma (s : State) : Host.Outcome State Fault Refusal :=
  let q := quadOfWord s.arg
  finishResult (.ok ((luma s.config.lumaRule q.r q.g q.b).setWidth 32)) s

end Sys2Proof.Machine
end

