-- ==== Sys2Proof/Machine/Tlut.lean ====
section
/-! DEFINITION. The palette table (41_tlut). -/

namespace Sys2Proof.Machine

/-- Entry `i` of the palette buffer, unpacked (R93, R151). -/
def paletteEntry (pal : View) (i : Nat) : Rgba :=
  unpack16 (halfOfBytes (pal.byte (2 * i)) (pal.byte (2 * i + 1)))

/-- `tlut_decode` (R151): the table TBL as the list of its quadruples, or `TruncatedInput` for a short palette. -/
def tlutDecode (n : Nat) (pal : View) : Except OpError (List Rgba) :=
  if pal.len < 2 * n then .error .truncatedInput else .ok ((List.range n).map (paletteEntry pal))

/-- `tlut_lookup` (R152): an index at or beyond the entry count is `PaletteIndexOutOfRange`. -/
def tlutLookup (tbl : List Rgba) (index : Byte) : Except OpError Rgba :=
  match tbl[index.toNat]? with
  | some q => .ok q
  | none => .error .paletteIndexOutOfRange

/-- The bytes of a table: entry `i` at offsets `4i` to `4i+3` (R93). -/
def tableBytes (tbl : List Rgba) : List Byte := tbl.flatMap quadBytes

/-- `TLUT.DECODE` (R151). -/
def execTlutDecode (psz : PaletteSize) (s : State) : Host.Outcome State Fault Refusal :=
  match tlutDecode (entries s.config psz) s.palView with
  | .error e => finishOutput (.error e) s
  | .ok tbl => finishOutput (emitVerbatim s.config.dstCap (View.ofList (tableBytes tbl))) s

/-- `TLUT.LOOKUP` (R152): the short palette is found before the bad index. -/
def execTlutLookup (psz : PaletteSize) (s : State) : Host.Outcome State Fault Refusal :=
  match tlutDecode (entries s.config psz) s.palView with
  | .error e => finishResult (.error e) s
  | .ok tbl => finishResult ((tlutLookup tbl (indexOfWord s.arg)).map quadToWord) s

end Sys2Proof.Machine
end

