-- ==== Sys2Proof/Machine/Dec.lean ====
section
/-! DEFINITION. Decode of the nine native formats to an RGBA8 stream (42_decode). -/

namespace Sys2Proof.Machine

/-- A pixel whose colour channels are equal. -/
def grayPixel (i a : Byte) : Rgba where
  r := i
  g := i
  b := i
  a := a

/-- `DEC.RGBA32`: four big-endian bytes taken directly as R, G, B, A (R166, R57). -/
def pixelRGBA32 (src : View) (p : Nat) : Except OpError Rgba :=
  (src.read32 (4 * p)).map quadOfWord

/-- `DEC.RGBA16`: one big-endian packed colour (R167). -/
def pixelRGBA16 (src : View) (p : Nat) : Except OpError Rgba :=
  (src.read16 (2 * p)).map unpack16

/-- `DEC.IA16`: an intensity byte and an alpha byte (R172). -/
def pixelIA16 (src : View) (p : Nat) : Except OpError Rgba :=
  (src.window (2 * p) 2).map (fun c : Nat → Byte => grayPixel (c 0) (c 1))

/-- `DEC.IA8`: high nibble masked, low nibble shifted left 4 (R171). -/
def pixelIA8 (src : View) (p : Nat) : Except OpError Rgba :=
  (src.read8 p).map (fun b : Byte => grayPixel (hiMask b) (loMask b <<< 4))

/-- `DEC.IA4`, from the half-byte position of the pixel: three bits of intensity times 32, one of alpha times 255 (R170). -/
def pixelIA4 (highFirst : Bool) (src : View) (p : Nat) : Except OpError Rgba :=
  (src.nibble highFirst p).map (fun n : Byte => grayPixel ((n >>> 1) * 32#8) ((n &&& 1#8) * 255#8))

/-- `DEC.I8`: one byte in all four channels (R174). -/
def pixelI8 (src : View) (p : Nat) : Except OpError Rgba :=
  (src.read8 p).map (fun i : Byte => grayPixel i i)

/-- `DEC.I4`, from the half-byte position of the pixel: the nibble at the top of all four channels (R173, C1). -/
def pixelI4 (src : View) (p : Nat) : Except OpError Rgba :=
  (src.nibble true p).map (fun n : Byte => grayPixel (n <<< 4) (n <<< 4))

/-- `DEC.CI8`: the byte is a palette index; a missing byte is found before a bad index (R169, R175). -/
def pixelCI8 (tbl : List Rgba) (src : View) (p : Nat) : Except OpError Rgba :=
  match src.read8 p with
  | .error e => .error e
  | .ok index => tlutLookup tbl index

/-- `DEC.CI4`, from the half-byte position of the pixel: the nibble is a palette index, high nibble first (R168). -/
def pixelCI4 (tbl : List Rgba) (src : View) (p : Nat) : Except OpError Rgba :=
  match src.nibble true p with
  | .error e => .error e
  | .ok index => tlutLookup tbl index

/-- The pixel loop of R165: pixels in raster order, each emitted R first. -/
def decodePixels (cap : Option Nat) (npix : Nat) (pixel : Nat → Except OpError Rgba) : Except OpError (List Byte) :=
  emitAll cap npix (fun p => (pixel p).map quadBytes)

/-- The frame of R165 for a format without a palette. -/
def decodePlain (pixel : View → Nat → Except OpError Rgba) (s : State) : Host.Outcome State Fault Refusal :=
  finishOutput (decodePixels s.config.dstCap s.pixelCount (pixel s.srcView)) s

/-- The frame of R165 for CI4 and CI8: `MissingPalette` before anything is read, then the palette table, then the
pixels (R175, R176). -/
def decodeIndexed (pixel : List Rgba → View → Nat → Except OpError Rgba) (p : Bool) (psz : PaletteSize) (s : State) :
    Host.Outcome State Fault Refusal :=
  if p then
    match tlutDecode (entries s.config psz) s.palView with
    | .error e => finishOutput (.error e) s
    | .ok tbl => finishOutput (decodePixels s.config.dstCap s.pixelCount (pixel tbl s.srcView)) s
  else finishOutput (.error .missingPalette) s

/-- `DEC.I4` (R173). -/
def execDecI4 (s : State) : Host.Outcome State Fault Refusal :=
  decodePlain (fun src p => pixelI4 src (s.position p)) s

/-- `DEC.I8` (R174). -/
def execDecI8 (s : State) : Host.Outcome State Fault Refusal := decodePlain pixelI8 s

/-- `DEC.IA4` (R170). -/
def execDecIA4 (s : State) : Host.Outcome State Fault Refusal :=
  decodePlain (fun src p => pixelIA4 s.config.ia4HighFirst src (s.position p)) s

/-- `DEC.IA8` (R171). -/
def execDecIA8 (s : State) : Host.Outcome State Fault Refusal := decodePlain pixelIA8 s

/-- `DEC.IA16` (R172). -/
def execDecIA16 (s : State) : Host.Outcome State Fault Refusal := decodePlain pixelIA16 s

/-- `DEC.CI4` (R168). -/
def execDecCI4 (p : Bool) (psz : PaletteSize) (s : State) : Host.Outcome State Fault Refusal :=
  decodeIndexed (fun tbl src k => pixelCI4 tbl src (s.position k)) p psz s

/-- `DEC.CI8` (R169). -/
def execDecCI8 (p : Bool) (psz : PaletteSize) (s : State) : Host.Outcome State Fault Refusal :=
  decodeIndexed pixelCI8 p psz s

/-- `DEC.RGBA16` (R167). -/
def execDecRGBA16 (s : State) : Host.Outcome State Fault Refusal := decodePlain pixelRGBA16 s

/-- `DEC.RGBA32` (R166). -/
def execDecRGBA32 (s : State) : Host.Outcome State Fault Refusal := decodePlain pixelRGBA32 s

end Sys2Proof.Machine
end

