-- ==== Sys2Proof/Machine/Enc.lean ====
section
/-! DEFINITION. Encode of an external pixel buffer to native bytes (43_encode). -/

namespace Sys2Proof.Machine

/-- A verbatim arm: SRC is copied whole, whatever its length (R201, D17). -/
def encodeVerbatim (s : State) : Host.Outcome State Fault Refusal :=
  finishOutput (emitVerbatim s.config.dstCap s.srcView) s

/-- The group loop of R201 over a view: whole groups of `k` bytes, a final partial group dropped. -/
def groupBytes (cap : Option Nat) (k : Nat) (out : (Nat → Byte) → List Byte) (src : View) :
    Except OpError (List Byte) :=
  emitAll cap (src.len / k) (fun j => (src.window (k * j) k).map out)

/-- A group arm of stride `k` (R201). -/
def encodeGroups (k : Nat) (out : (Nat → Byte) → List Byte) (s : State) : Host.Outcome State Fault Refusal :=
  finishOutput (groupBytes s.config.dstCap k out s.srcView) s

/-- The catch-all: nothing is read and nothing is written (R221). -/
def encodeRefused (ctype : ColorType) (depth : BitVec 5) (s : State) : Host.Outcome State Fault Refusal :=
  finishOutput (.error (.invalidSourceShape ctype depth)) s

/-- The intensity fold of the I4 arms: `hi(i0) | (i1 >> 4)` (R205, D20). -/
def foldIntensity (i0 i1 : Byte) : List Byte := [hiMask i0 ||| (i1 >>> 4)]

/-- The index fold: `((first << 4) in 8 bits) | second` (R218, D18). -/
def foldIndex (first second : Byte) : List Byte := [(first <<< 4) ||| second]

/-- `nibble(g, a) = ((g >> 5) << 1) | (1 if a > 127 else 0)` (R214). -/
def nibbleIA4 (g a : Byte) : Byte := ((g >>> 5) <<< 1) ||| (if a.toNat > 127 then 1#8 else 0#8)

/-- `out` of `ENC.RGBA16.RGBA8` (R203): high byte first. -/
def outRGBA16RGBA8 (c : Nat → Byte) : List Byte := halfBytes (pack16 (Rgba.mk (c 0) (c 1) (c 2) (c 3)))

/-- `out` of `ENC.I4.G8` (R205). -/
def outI4G8 (c : Nat → Byte) : List Byte := foldIntensity (c 0) (c 1)

/-- `out` of `ENC.I4.GA8` (R206). -/
def outI4GA8 (c : Nat → Byte) : List Byte := foldIntensity (c 0) (c 2)

/-- `out` of `ENC.I4.RGB8` (R207). -/
def outI4RGB8 (rule : LumaRule) (c : Nat → Byte) : List Byte :=
  foldIntensity (luma rule (c 0) (c 1) (c 2)) (luma rule (c 3) (c 4) (c 5))

/-- `out` of `ENC.I4.RGBA8` (R208): with the double read the second intensity is the first pixel's again. -/
def outI4RGBA8 (rule : LumaRule) (doubleRead : Bool) (c : Nat → Byte) : List Byte :=
  foldIntensity (luma rule (c 0) (c 1) (c 2))
    (if doubleRead then luma rule (c 0) (c 1) (c 2) else luma rule (c 4) (c 5) (c 6))

/-- Stride of `ENC.I8.G4` in each reading (R210). -/
def strideI8G4 : I8G4Mode → Nat
  | .expandShift => 1
  | .expandReplicate => 1
  | .fold => 2

/-- `out` of `ENC.I8.G4` in each reading (R210). -/
def outI8G4 (mode : I8G4Mode) (c : Nat → Byte) : List Byte :=
  match mode with
  | .expandShift => [hiMask (c 0), loMask (c 0) <<< 4]
  | .expandReplicate => [hiMask (c 0) ||| (c 0 >>> 4), (loMask (c 0) <<< 4) ||| loMask (c 0)]
  | .fold => foldIndex (c 0) (c 1)

/-- `out` of `ENC.I8.GA8` (R211). -/
def outI8GA8 (c : Nat → Byte) : List Byte := [c 0]

/-- `out` of `ENC.I8.RGB8` (R212). -/
def outI8RGB8 (rule : LumaRule) (c : Nat → Byte) : List Byte := [luma rule (c 0) (c 1) (c 2)]

/-- `out` of `ENC.I8.RGBA8` (R213). -/
def outI8RGBA8 (rule : LumaRule) (c : Nat → Byte) : List Byte := [luma rule (c 0) (c 1) (c 2)]

/-- `out` of `ENC.IA4.GA8` (R214), the first pixel in the nibble `IA4_HIGH_FIRST` says (D7). -/
def outIA4GA8 (highFirst : Bool) (c : Nat → Byte) : List Byte :=
  if highFirst then [(nibbleIA4 (c 0) (c 1) <<< 4) ||| nibbleIA4 (c 2) (c 3)]
  else [(nibbleIA4 (c 2) (c 3) <<< 4) ||| nibbleIA4 (c 0) (c 1)]

/-- `out` of `ENC.IA8.GA8` (R215), the grey byte masked or not as `IA8_ENC_MASK_GRAY` says (D16, C2). -/
def outIA8GA8 (maskGray : Bool) (c : Nat → Byte) : List Byte :=
  [(if maskGray then hiMask (c 0) else c 0) ||| (c 1 >>> 4)]

/-- `out` of `ENC.CI4.IDX8` (R218). -/
def outCI4IDX8 (c : Nat → Byte) : List Byte := foldIndex (c 0) (c 1)

/-- `out` of `ENC.CI8.IDX4`: the fold as stated (R220, D19). -/
def outCI8IDX4 (c : Nat → Byte) : List Byte := foldIndex (c 0) (c 1)

/-- `ENC.RGBA32.RGBA8` (R202). -/
def execEncRGBA32RGBA8 (s : State) : Host.Outcome State Fault Refusal := encodeVerbatim s

/-- `ENC.RGBA16.RGBA8` (R203). -/
def execEncRGBA16RGBA8 (s : State) : Host.Outcome State Fault Refusal := encodeGroups 4 outRGBA16RGBA8 s

/-- `ENC.I4.G4` (R204). -/
def execEncI4G4 (s : State) : Host.Outcome State Fault Refusal := encodeVerbatim s

/-- `ENC.I4.G8` (R205). -/
def execEncI4G8 (s : State) : Host.Outcome State Fault Refusal := encodeGroups 2 outI4G8 s

/-- `ENC.I4.GA8` (R206). -/
def execEncI4GA8 (s : State) : Host.Outcome State Fault Refusal := encodeGroups 4 outI4GA8 s

/-- `ENC.I4.RGB8` (R207). -/
def execEncI4RGB8 (s : State) : Host.Outcome State Fault Refusal := encodeGroups 6 (outI4RGB8 s.config.lumaRule) s

/-- `ENC.I4.RGBA8` (R208). -/
def execEncI4RGBA8 (s : State) : Host.Outcome State Fault Refusal :=
  encodeGroups 8 (outI4RGBA8 s.config.lumaRule s.config.i4RgbaDoubleRead) s

/-- `ENC.I8.G8` (R209). -/
def execEncI8G8 (s : State) : Host.Outcome State Fault Refusal := encodeVerbatim s

/-- `ENC.I8.G4` (R210). -/
def execEncI8G4 (s : State) : Host.Outcome State Fault Refusal :=
  encodeGroups (strideI8G4 s.config.encI8G4Mode) (outI8G4 s.config.encI8G4Mode) s

/-- `ENC.I8.GA8` (R211). -/
def execEncI8GA8 (s : State) : Host.Outcome State Fault Refusal := encodeGroups 2 outI8GA8 s

/-- `ENC.I8.RGB8` (R212). -/
def execEncI8RGB8 (s : State) : Host.Outcome State Fault Refusal := encodeGroups 3 (outI8RGB8 s.config.lumaRule) s

/-- `ENC.I8.RGBA8` (R213). -/
def execEncI8RGBA8 (s : State) : Host.Outcome State Fault Refusal := encodeGroups 4 (outI8RGBA8 s.config.lumaRule) s

/-- `ENC.IA4.GA8` (R214). -/
def execEncIA4GA8 (s : State) : Host.Outcome State Fault Refusal :=
  encodeGroups 4 (outIA4GA8 s.config.ia4HighFirst) s

/-- `ENC.IA8.GA8` (R215). -/
def execEncIA8GA8 (s : State) : Host.Outcome State Fault Refusal :=
  encodeGroups 2 (outIA8GA8 s.config.ia8EncMaskGray) s

/-- `ENC.IA16.GA8` (R216). -/
def execEncIA16GA8 (s : State) : Host.Outcome State Fault Refusal := encodeVerbatim s

/-- `ENC.CI4.IDX4` (R217). -/
def execEncCI4IDX4 (s : State) : Host.Outcome State Fault Refusal := encodeVerbatim s

/-- `ENC.CI4.IDX8` (R218). -/
def execEncCI4IDX8 (s : State) : Host.Outcome State Fault Refusal := encodeGroups 2 outCI4IDX8 s

/-- `ENC.CI8.IDX8` (R219). -/
def execEncCI8IDX8 (s : State) : Host.Outcome State Fault Refusal := encodeVerbatim s

/-- `ENC.CI8.IDX4` (R220). -/
def execEncCI8IDX4 (s : State) : Host.Outcome State Fault Refusal := encodeGroups 2 outCI8IDX4 s

/-- `ENC.I4.other` (R221). -/
def execEncI4Other (ctype : ColorType) (depth : BitVec 5) (s : State) : Host.Outcome State Fault Refusal :=
  encodeRefused ctype depth s

/-- `ENC.I8.other` (R221). -/
def execEncI8Other (ctype : ColorType) (depth : BitVec 5) (s : State) : Host.Outcome State Fault Refusal :=
  encodeRefused ctype depth s

/-- `ENC.IA4.other` (R221). -/
def execEncIA4Other (ctype : ColorType) (depth : BitVec 5) (s : State) : Host.Outcome State Fault Refusal :=
  encodeRefused ctype depth s

/-- `ENC.IA8.other` (R221). -/
def execEncIA8Other (ctype : ColorType) (depth : BitVec 5) (s : State) : Host.Outcome State Fault Refusal :=
  encodeRefused ctype depth s

/-- `ENC.IA16.other` (R221). -/
def execEncIA16Other (ctype : ColorType) (depth : BitVec 5) (s : State) : Host.Outcome State Fault Refusal :=
  encodeRefused ctype depth s

/-- `ENC.CI4.other` (R221). -/
def execEncCI4Other (ctype : ColorType) (depth : BitVec 5) (s : State) : Host.Outcome State Fault Refusal :=
  encodeRefused ctype depth s

/-- `ENC.CI8.other` (R221). -/
def execEncCI8Other (ctype : ColorType) (depth : BitVec 5) (s : State) : Host.Outcome State Fault Refusal :=
  encodeRefused ctype depth s

/-- `ENC.RGBA16.other` (R221). -/
def execEncRGBA16Other (ctype : ColorType) (depth : BitVec 5) (s : State) : Host.Outcome State Fault Refusal :=
  encodeRefused ctype depth s

/-- `ENC.RGBA32.other` (R221). -/
def execEncRGBA32Other (ctype : ColorType) (depth : BitVec 5) (s : State) : Host.Outcome State Fault Refusal :=
  encodeRefused ctype depth s

end Sys2Proof.Machine
end

