-- ==== Sys2Proof/Machine/Meta.lean ====
section
/-! DEFINITION. Container metadata (44_container_adapter R250). -/

namespace Sys2Proof.Machine

/-- `(pal << 8) | (ct << 5) | d`, every other bit 0 (R96, R250). -/
def metaResult (hasPalette : Bool) (ctype : ColorType) (depth : BitVec 5) : Word :=
  0#23 ++ BitVec.ofBool hasPalette ++ ctype.code ++ depth

/-- The first row of R250: an RGBA/8-bit image without a palette. -/
def metaDirect (s : State) : Host.Outcome State Fault Refusal :=
  finishResult (.ok (metaResult false .rgba 8)) s

/-- The second row of R250: an Indexed/8-bit image with a palette. -/
def metaIndexed (s : State) : Host.Outcome State Fault Refusal :=
  finishResult (.ok (metaResult true .idx 8)) s

/-- `META.I4` (R250). -/
def execMetaI4 (s : State) : Host.Outcome State Fault Refusal := metaDirect s

/-- `META.I8` (R250). -/
def execMetaI8 (s : State) : Host.Outcome State Fault Refusal := metaDirect s

/-- `META.IA4` (R250). -/
def execMetaIA4 (s : State) : Host.Outcome State Fault Refusal := metaDirect s

/-- `META.IA8` (R250). -/
def execMetaIA8 (s : State) : Host.Outcome State Fault Refusal := metaDirect s

/-- `META.IA16` (R250). -/
def execMetaIA16 (s : State) : Host.Outcome State Fault Refusal := metaDirect s

/-- `META.CI4` (R250). -/
def execMetaCI4 (s : State) : Host.Outcome State Fault Refusal := metaIndexed s

/-- `META.CI8` (R250). -/
def execMetaCI8 (s : State) : Host.Outcome State Fault Refusal := metaIndexed s

/-- `META.RGBA16` (R250). -/
def execMetaRGBA16 (s : State) : Host.Outcome State Fault Refusal := metaDirect s

/-- `META.RGBA32` (R250). -/
def execMetaRGBA32 (s : State) : Host.Outcome State Fault Refusal := metaDirect s

end Sys2Proof.Machine
end

