-- ==== Sys2Proof/Machine/Dispatch.lean ====
section
/-! DEFINITION. One arm per operation of 30_encoding R100, each a direct call of the operation's meaning. -/

namespace Sys2Proof.Machine

def exec (i : Instr) (s : State) : Host.Outcome State Fault Refusal :=
  match i with
  | .pack16 => Sys2Proof.Machine.execPack16 s
  | .unpack16 => Sys2Proof.Machine.execUnpack16 s
  | .luma => Sys2Proof.Machine.execLuma s
  | .tlutDecode psz => Sys2Proof.Machine.execTlutDecode psz s
  | .tlutLookup psz => Sys2Proof.Machine.execTlutLookup psz s
  | .decI4 _ _ => Sys2Proof.Machine.execDecI4 s
  | .decI8 _ _ => Sys2Proof.Machine.execDecI8 s
  | .decIA4 _ _ => Sys2Proof.Machine.execDecIA4 s
  | .decIA8 _ _ => Sys2Proof.Machine.execDecIA8 s
  | .decIA16 _ _ => Sys2Proof.Machine.execDecIA16 s
  | .decCI4 p psz => Sys2Proof.Machine.execDecCI4 p psz s
  | .decCI8 p psz => Sys2Proof.Machine.execDecCI8 p psz s
  | .decRGBA16 _ _ => Sys2Proof.Machine.execDecRGBA16 s
  | .decRGBA32 _ _ => Sys2Proof.Machine.execDecRGBA32 s
  | .encRGBA32RGBA8 => Sys2Proof.Machine.execEncRGBA32RGBA8 s
  | .encRGBA16RGBA8 => Sys2Proof.Machine.execEncRGBA16RGBA8 s
  | .encI4G4 => Sys2Proof.Machine.execEncI4G4 s
  | .encI4G8 => Sys2Proof.Machine.execEncI4G8 s
  | .encI4GA8 => Sys2Proof.Machine.execEncI4GA8 s
  | .encI4RGB8 => Sys2Proof.Machine.execEncI4RGB8 s
  | .encI4RGBA8 => Sys2Proof.Machine.execEncI4RGBA8 s
  | .encI8G8 => Sys2Proof.Machine.execEncI8G8 s
  | .encI8G4 => Sys2Proof.Machine.execEncI8G4 s
  | .encI8GA8 => Sys2Proof.Machine.execEncI8GA8 s
  | .encI8RGB8 => Sys2Proof.Machine.execEncI8RGB8 s
  | .encI8RGBA8 => Sys2Proof.Machine.execEncI8RGBA8 s
  | .encIA4GA8 => Sys2Proof.Machine.execEncIA4GA8 s
  | .encIA8GA8 => Sys2Proof.Machine.execEncIA8GA8 s
  | .encIA16GA8 => Sys2Proof.Machine.execEncIA16GA8 s
  | .encCI4IDX4 => Sys2Proof.Machine.execEncCI4IDX4 s
  | .encCI4IDX8 => Sys2Proof.Machine.execEncCI4IDX8 s
  | .encCI8IDX8 => Sys2Proof.Machine.execEncCI8IDX8 s
  | .encCI8IDX4 => Sys2Proof.Machine.execEncCI8IDX4 s
  | .encI4Other ctype depth => Sys2Proof.Machine.execEncI4Other ctype depth s
  | .encI8Other ctype depth => Sys2Proof.Machine.execEncI8Other ctype depth s
  | .encIA4Other ctype depth => Sys2Proof.Machine.execEncIA4Other ctype depth s
  | .encIA8Other ctype depth => Sys2Proof.Machine.execEncIA8Other ctype depth s
  | .encIA16Other ctype depth => Sys2Proof.Machine.execEncIA16Other ctype depth s
  | .encCI4Other ctype depth => Sys2Proof.Machine.execEncCI4Other ctype depth s
  | .encCI8Other ctype depth => Sys2Proof.Machine.execEncCI8Other ctype depth s
  | .encRGBA16Other ctype depth => Sys2Proof.Machine.execEncRGBA16Other ctype depth s
  | .encRGBA32Other ctype depth => Sys2Proof.Machine.execEncRGBA32Other ctype depth s
  | .metaI4 => Sys2Proof.Machine.execMetaI4 s
  | .metaI8 => Sys2Proof.Machine.execMetaI8 s
  | .metaIA4 => Sys2Proof.Machine.execMetaIA4 s
  | .metaIA8 => Sys2Proof.Machine.execMetaIA8 s
  | .metaIA16 => Sys2Proof.Machine.execMetaIA16 s
  | .metaCI4 => Sys2Proof.Machine.execMetaCI4 s
  | .metaCI8 => Sys2Proof.Machine.execMetaCI8 s
  | .metaRGBA16 => Sys2Proof.Machine.execMetaRGBA16 s
  | .metaRGBA32 => Sys2Proof.Machine.execMetaRGBA32 s

end Sys2Proof.Machine
end

