-- ==== Sys2Proof/Machine/HostPort.lean ====
section
/-! DEFINITION. The host's side (10_state R20, R29, R30, 20_memory R51): issuing an operation, register and buffer
accesses, reset. -/

namespace Sys2Proof.Machine

/-- A write of the word `c` to CMD (R29): the operation starts, the word selects it (R81), and it runs to its end. A
reserved word raises `IllegalCommand` (R88, R265). -/
def issue (c : Word) (s : State) : Host.Outcome State Fault Refusal :=
  match decode c with
  | .ok i => exec i (beginOperation c s)
  | .error _ => .next (raiseError .illegalCommand (beginOperation c s))

/-- A host register write (R21, R29, R30; refusals U8, U9). -/
def hostWriteReg (n : Nat) (v : Word) (s : State) : Host.Outcome State Fault Refusal :=
  match n with
  | 0 => issue v s
  | 1 => .next { s with width := v }
  | 2 => .next { s with height := v }
  | 3 =>
    if fits s.config.srcCap v.toNat then .next { s with srcLen := v } else .refused (.lengthAboveCapacity .src)
  | 4 =>
    if fits s.config.palCap v.toNat then .next { s with palLen := v } else .refused (.lengthAboveCapacity .pal)
  | 5 => .next { s with arg := v }
  | 6 => .refused (.readOnlyRegister 6)
  | 7 => .refused (.readOnlyRegister 7)
  | 8 => .refused (.readOnlyRegister 8)
  | 9 => .refused (.readOnlyRegister 9)
  | n => .refused (.noSuchRegister n)

/-- A host register read: the current value, no side effect (R30; refusal U8). -/
def hostReadReg (n : Nat) (s : State) : Host.Outcome State Fault Refusal :=
  match s.register n with
  | some v => .next { s with replies := s.replies ++ [.reg n v] }
  | none => .refused (.noSuchRegister n)

/-- A host byte write, to SRC or PAL (R51). It does not set the length (R99). -/
def hostWriteByte (sp : Space) (off : Nat) (b : Byte) (s : State) : Host.Outcome State Fault Refusal :=
  if fits (capacity s.config sp) (off + 1) then
    match sp with
    | .src => .next { s with src := s.src.store off [b] }
    | .pal => .next { s with pal := s.pal.store off [b] }
    | .dst => .refused (.hostWriteToDst off)
  else .fault (.noSuchByte sp off)

/-- A host byte read of any buffer (R51): no side effect (R53, R62). -/
def hostReadByte (sp : Space) (off : Nat) (s : State) : Host.Outcome State Fault Refusal :=
  if fits (capacity s.config sp) (off + 1) then
    .next { s with replies := s.replies ++ [.byte sp off (s.byteAt sp off)] }
  else .fault (.noSuchByte sp off)

/-- One host action (R20). -/
def hostAct (a : HostAction) (s : State) : Host.Outcome State Fault Refusal :=
  match a with
  | .writeReg n v => hostWriteReg n v s
  | .readReg n => hostReadReg n s
  | .writeByte sp off b => hostWriteByte sp off b s
  | .readByte sp off => hostReadByte sp off s
  | .reset => .next (resetBlock s)

end Sys2Proof.Machine
end

