-- ==== Sys2Proof/Machine/Step.lean ====
section
/-! DEFINITION. One step: the host's next pending action, which for a CMD write contains the engine's whole operation
(10_state R20, R29; log 1). -/

namespace Sys2Proof.Machine

/-- Takes the oldest pending host action and performs it. With none pending nothing is issued and nothing changes
(log 2). -/
def step (s : State) : Host.Outcome State Fault Refusal :=
  match s.host with
  | [] => .next s
  | a :: rest => hostAct a { s with host := rest }

/-- The state whose next host action writes the table word to CMD: the only way a command word enters (R24, R68;
log 1). -/
def State.withFetchWord (s : State) (nbits w : Nat) : State :=
  { s with host := .writeReg 0 (BitVec.ofNat 32 (w % 2 ^ nbits)) :: s.host }

end Sys2Proof.Machine
end

