-- ==== Sys2Proof/Safety.lean ====
section
/-! DEFINITION. The words claims are stated in: the invariant of the machine, which host actions are legal, what it is
for an operation to end in an output, a result or an error, and the arithmetic the rules write for the data formats. -/

namespace Sys2Proof.Machine

/-! ## The invariant -/

/-- R25: every bit outside `STATE` and `ERRKIND` is 0, `STATE` is never 3, `ERRKIND` never 7, and `ERRKIND` is non-zero
exactly when `STATE = ERR`. -/
def StatusLegal (w : Word) : Prop :=
  w &&& ~~~0x73#32 = 0#32 ∧ stateField w ≠ 3 ∧ errKindField w ≠ 7 ∧ (errKindField w ≠ 0 ↔ stateField w = 2)

/-- A buffer in canonical form whose recorded bytes lie below its capacity and whose unspecified bytes were drawn
before now. -/
def MemoryLegal (cap : Option Nat) (freeIdx : Nat) (m : Memory) : Prop :=
  m.wf ∧ (∀ c ∈ m.cells, fits cap (c.1 + 1) = true) ∧ m.epoch < freeIdx

/-- What every step keeps. -/
structure StateInv (s : State) : Prop where
  /-- R25. -/
  status : StatusLegal s.status
  /-- R26: `ERRINFO` is `CTYPE` and `DEPTH` of the word in `CMD` after an `InvalidSourceShape`, else 0. -/
  errInfo : s.errInfo = if errKindField s.status = 3 then (s.cmd >>> 16) &&& 0xFF#32 else 0#32
  /-- R27: no output after an error. -/
  noOutputAfterError : stateField s.status = 2 → s.dstLen = 0
  /-- R27: the output bytes are at offsets 0 to `DST_LEN - 1`. -/
  outputRecorded : ∀ k, k < s.dstLen.toNat → (s.dst.recorded k).isSome
  /-- R23. -/
  srcLenFits : fits s.config.srcCap s.srcLen.toNat = true
  /-- R23. -/
  palLenFits : fits s.config.palCap s.palLen.toNat = true
  srcLegal : MemoryLegal s.config.srcCap s.freeIdx s.src
  palLegal : MemoryLegal s.config.palCap s.freeIdx s.pal
  dstLegal : MemoryLegal s.config.dstCap s.freeIdx s.dst

/-- The host actions the spec gives a behaviour (R30, R51, U8, U9): a safe run is one whose every action is legal. -/
def legalAction (s : State) : HostAction → Bool
  | .writeReg n v =>
    n ≤ 5 && (n != 3 || fits s.config.srcCap v.toNat) && (n != 4 || fits s.config.palCap v.toNat)
  | .readReg n => n ≤ 9
  | .writeByte sp off _ => fits (capacity s.config sp) (off + 1) && sp != .dst
  | .readByte sp off => fits (capacity s.config sp) (off + 1)
  | .reset => true

/-! ## How an operation ends -/

/-- `t` is `s` after a success with an output of `n` bytes, `out k` at offset `k` (R27, R29, R54). `DST_LEN` is stated
where 32 bits hold `n` (log 7). Every other byte of DST reads as before, and everything else is unchanged. -/
structure OutputDone (s t : State) (n : Nat) (out : Nat → Byte) : Prop where
  status : t.status = 1#32
  errInfo : t.errInfo = 0#32
  dstLen : n < 2 ^ 32 → t.dstLen.toNat = n
  output : ∀ k, k < n → t.dst.recorded k = some (out k)
  otherBytes : ∀ k, n ≤ k → t.byteAt .dst k = s.byteAt .dst k
  frame : t = { s with status := t.status, errInfo := t.errInfo, dstLen := t.dstLen, dst := t.dst }

/-- `t` is `s` after an error of the code with the information (R270): everything else is unchanged, and no byte of DST
is recorded, each holding a free value drawn afresh. -/
structure ErrorEntered (s t : State) (code : Nat) (info : Word) : Prop where
  state : stateField t.status = 2
  kind : (errKindField t.status).toNat = code
  otherStatusBits : t.status &&& ~~~0x73#32 = 0#32
  errInfo : t.errInfo = info
  dstLen : t.dstLen = 0
  dstUnspecified : ∀ k, t.dst.recorded k = none
  drawnAfresh : t.dst.epoch = s.freeIdx ∧ t.freeIdx = s.freeIdx + 1
  frame : t = { s with status := t.status, errInfo := t.errInfo, dstLen := t.dstLen, dst := t.dst,
                       freeIdx := t.freeIdx }

/-- The operation succeeds with an output of `n` bytes. -/
def Outputs (i : Instr) (s : State) (n : Nat) (out : Nat → Byte) : Prop :=
  ∃ t, exec i s = .next t ∧ OutputDone s t n out

/-- The operation succeeds with the value in `RES` and changes nothing but `STATUS`, `ERRINFO` and `DST_LEN` beside it
(R28, R29). -/
def Returns (i : Instr) (s : State) (v : Word) : Prop :=
  exec i s = .next { s with res := v, status := 1#32, errInfo := 0#32, dstLen := 0#32 }

/-- The operation ends with an error of the code. -/
def Fails (i : Instr) (s : State) (code : Nat) (info : Word) : Prop :=
  ∃ t, exec i s = .next t ∧ ErrorEntered s t code info

/-- The operations that have a result in `RES` (R28, R96). -/
def returnsResult : Instr → Bool
  | .pack16 => true
  | .unpack16 => true
  | .luma => true
  | .tlutDecode _ => false
  | .tlutLookup _ => true
  | .decI4 _ _ => false
  | .decI8 _ _ => false
  | .decIA4 _ _ => false
  | .decIA8 _ _ => false
  | .decIA16 _ _ => false
  | .decCI4 _ _ => false
  | .decCI8 _ _ => false
  | .decRGBA16 _ _ => false
  | .decRGBA32 _ _ => false
  | .encRGBA32RGBA8 => false
  | .encRGBA16RGBA8 => false
  | .encI4G4 => false
  | .encI4G8 => false
  | .encI4GA8 => false
  | .encI4RGB8 => false
  | .encI4RGBA8 => false
  | .encI8G8 => false
  | .encI8G4 => false
  | .encI8GA8 => false
  | .encI8RGB8 => false
  | .encI8RGBA8 => false
  | .encIA4GA8 => false
  | .encIA8GA8 => false
  | .encIA16GA8 => false
  | .encCI4IDX4 => false
  | .encCI4IDX8 => false
  | .encCI8IDX8 => false
  | .encCI8IDX4 => false
  | .encI4Other _ _ => false
  | .encI8Other _ _ => false
  | .encIA4Other _ _ => false
  | .encIA8Other _ _ => false
  | .encIA16Other _ _ => false
  | .encCI4Other _ _ => false
  | .encCI8Other _ _ => false
  | .encRGBA16Other _ _ => false
  | .encRGBA32Other _ _ => false
  | .metaI4 => true
  | .metaI8 => true
  | .metaIA4 => true
  | .metaIA8 => true
  | .metaIA16 => true
  | .metaCI4 => true
  | .metaCI8 => true
  | .metaRGBA16 => true
  | .metaRGBA32 => true

/-- The format a decode decodes (R83, R100). -/
def decodedFormat : Instr → Option ImageFormat
  | .pack16 => none
  | .unpack16 => none
  | .luma => none
  | .tlutDecode _ => none
  | .tlutLookup _ => none
  | .decI4 _ _ => some .i4
  | .decI8 _ _ => some .i8
  | .decIA4 _ _ => some .ia4
  | .decIA8 _ _ => some .ia8
  | .decIA16 _ _ => some .ia16
  | .decCI4 _ _ => some .ci4
  | .decCI8 _ _ => some .ci8
  | .decRGBA16 _ _ => some .rgba16
  | .decRGBA32 _ _ => some .rgba32
  | .encRGBA32RGBA8 => none
  | .encRGBA16RGBA8 => none
  | .encI4G4 => none
  | .encI4G8 => none
  | .encI4GA8 => none
  | .encI4RGB8 => none
  | .encI4RGBA8 => none
  | .encI8G8 => none
  | .encI8G4 => none
  | .encI8GA8 => none
  | .encI8RGB8 => none
  | .encI8RGBA8 => none
  | .encIA4GA8 => none
  | .encIA8GA8 => none
  | .encIA16GA8 => none
  | .encCI4IDX4 => none
  | .encCI4IDX8 => none
  | .encCI8IDX8 => none
  | .encCI8IDX4 => none
  | .encI4Other _ _ => none
  | .encI8Other _ _ => none
  | .encIA4Other _ _ => none
  | .encIA8Other _ _ => none
  | .encIA16Other _ _ => none
  | .encCI4Other _ _ => none
  | .encCI8Other _ _ => none
  | .encRGBA16Other _ _ => none
  | .encRGBA32Other _ _ => none
  | .metaI4 => none
  | .metaI8 => none
  | .metaIA4 => none
  | .metaIA8 => none
  | .metaIA16 => none
  | .metaCI4 => none
  | .metaCI8 => none
  | .metaRGBA16 => none
  | .metaRGBA32 => none

/-- Number of pixels (R13). -/
def npix (s : State) : Nat := s.width.toNat * s.height.toNat

/-- The number of bytes a successful operation writes to DST: four per pixel in a decode (R165, R177), four per entry in
`TLUT.DECODE` (R151), every byte of SRC in a verbatim encode and the whole groups times the bytes per group in the others
(R201); 0 for an operation that has a result and for a catch-all. -/
def outputLength (i : Instr) (s : State) : Nat :=
  match i with
  | .pack16 => 0
  | .unpack16 => 0
  | .luma => 0
  | .tlutDecode psz => 4 * entries s.config psz
  | .tlutLookup _ => 0
  | .decI4 _ _ => 4 * npix s
  | .decI8 _ _ => 4 * npix s
  | .decIA4 _ _ => 4 * npix s
  | .decIA8 _ _ => 4 * npix s
  | .decIA16 _ _ => 4 * npix s
  | .decCI4 _ _ => 4 * npix s
  | .decCI8 _ _ => 4 * npix s
  | .decRGBA16 _ _ => 4 * npix s
  | .decRGBA32 _ _ => 4 * npix s
  | .encRGBA32RGBA8 => s.srcLen.toNat
  | .encRGBA16RGBA8 => s.srcLen.toNat / 4 * 2
  | .encI4G4 => s.srcLen.toNat
  | .encI4G8 => s.srcLen.toNat / 2 * 1
  | .encI4GA8 => s.srcLen.toNat / 4 * 1
  | .encI4RGB8 => s.srcLen.toNat / 6 * 1
  | .encI4RGBA8 => s.srcLen.toNat / 8 * 1
  | .encI8G8 => s.srcLen.toNat
  | .encI8G4 => s.srcLen.toNat / strideI8G4 s.config.encI8G4Mode * (if s.config.encI8G4Mode = .fold then 1 else 2)
  | .encI8GA8 => s.srcLen.toNat / 2 * 1
  | .encI8RGB8 => s.srcLen.toNat / 3 * 1
  | .encI8RGBA8 => s.srcLen.toNat / 4 * 1
  | .encIA4GA8 => s.srcLen.toNat / 4 * 1
  | .encIA8GA8 => s.srcLen.toNat / 2 * 1
  | .encIA16GA8 => s.srcLen.toNat
  | .encCI4IDX4 => s.srcLen.toNat
  | .encCI4IDX8 => s.srcLen.toNat / 2 * 1
  | .encCI8IDX8 => s.srcLen.toNat
  | .encCI8IDX4 => s.srcLen.toNat / 2 * 1
  | .encI4Other _ _ => 0
  | .encI8Other _ _ => 0
  | .encIA4Other _ _ => 0
  | .encIA8Other _ _ => 0
  | .encIA16Other _ _ => 0
  | .encCI4Other _ _ => 0
  | .encCI8Other _ _ => 0
  | .encRGBA16Other _ _ => 0
  | .encRGBA32Other _ _ => 0
  | .metaI4 => 0
  | .metaI8 => 0
  | .metaIA4 => 0
  | .metaIA8 => 0
  | .metaIA16 => 0
  | .metaCI4 => 0
  | .metaCI8 => 0
  | .metaRGBA16 => 0
  | .metaRGBA32 => 0

/-! ## Reserved words in the numbers of R88 -/

/-- The clauses of R88 on the numbers of the fields of R80. -/
abbrev reservedFields (cls sel ctype depth p psz low : Nat) : Prop :=
  low ≠ 0 ∨ 5 ≤ cls
    ∨ (cls = 0 ∧ 2 < sel) ∨ (cls = 1 ∧ 1 < sel) ∨ (2 ≤ cls ∧ cls ≤ 4 ∧ 8 < sel)
    ∨ (cls ≠ 3 ∧ (ctype ≠ 0 ∨ depth ≠ 0)) ∨ (cls = 3 ∧ 5 ≤ ctype)
    ∨ ((cls = 0 ∨ cls = 3 ∨ cls = 4) ∧ (p ≠ 0 ∨ psz ≠ 0)) ∨ (cls = 1 ∧ p = 0)

/-- R88 on the number a command word is: its bits 31:28, 27:24, 23:21, 20:16, 15, 14:13 and 12:0 (R80). -/
abbrev reservedWord (c : Word) : Prop :=
  reservedFields (c.toNat / 2 ^ 28) (c.toNat / 2 ^ 24 % 16) (c.toNat / 2 ^ 21 % 8) (c.toNat / 2 ^ 16 % 32)
    (c.toNat / 2 ^ 15 % 2) (c.toNat / 2 ^ 13 % 4) (c.toNat % 2 ^ 13)

/-! ## The data formats in the arithmetic of the rules -/

/-- Channel `k` of a quadruple in the order R, G, B, A (R92). -/
def channel (q : Rgba) (k : Nat) : Byte :=
  match k with
  | 0 => q.r
  | 1 => q.g
  | 2 => q.b
  | _ => q.a

/-- Byte `k` of the RGBA8 stream whose pixel `p` is `quad p` (R92). -/
def streamByte (quad : Nat → Rgba) (k : Nat) : Byte := channel (quad (k / 4)) (k % 4)

/-- `P16` of four channels as a number (R131). -/
def packedNumber (r g b a : Nat) : Nat := r / 8 * 2048 + g / 8 * 64 + b / 8 * 2 + a / 255

/-- The quadruple of a `P16` number (R132). -/
def unpackedQuad (p : Nat) : Rgba where
  r := BitVec.ofNat 8 (p / 2048 % 32 * 8)
  g := BitVec.ofNat 8 (p / 64 % 32 * 8)
  b := BitVec.ofNat 8 (p / 2 % 32 * 8)
  a := BitVec.ofNat 8 (p % 2 * 255)

/-- A quadruple as the number of its register value (R28). -/
def quadNumber (q : Rgba) : Nat :=
  q.r.toNat * 2 ^ 24 + q.g.toNat * 2 ^ 16 + q.b.toNat * 2 ^ 8 + q.a.toNat

/-- Intensity as a number: the formula of R133, or what another rule gives (U6, log 8). -/
def lumaNumber (rule : LumaRule) (r g b : Byte) : Nat :=
  match rule with
  | .exactIntegers => (2126 * r.toNat + 7152 * g.toNat + 722 * b.toNat) / 10000
  | .other n => (luma (.other n) r g b).toNat

/-- The number of the big-endian 16-bit value at an offset of a space (R55). -/
def halfNumber (s : State) (sp : Space) (off : Nat) : Nat :=
  256 * (s.byteAt sp off).toNat + (s.byteAt sp (off + 1)).toNat

/-- The number at half-byte position `p` of SRC: the high nibble of byte `p / 2` for an even `p`, the low one for an odd
`p`. With `PACK_LINEAR` it is the number of 4-bit pixel `p` (R59). -/
def nibbleNumber (s : State) (p : Nat) : Nat :=
  if p % 2 = 0 then (s.byteAt .src (p / 2)).toNat / 16 else (s.byteAt .src (p / 2)).toNat % 16

/-- The same with the first pixel in the low nibble (R9 `IA4_HIGH_FIRST` false). -/
def nibbleNumberLowFirst (s : State) (p : Nat) : Nat :=
  if p % 2 = 0 then (s.byteAt .src (p / 2)).toNat % 16 else (s.byteAt .src (p / 2)).toNat / 16

/-- A grey pixel from two numbers. -/
def grayNumber (i a : Nat) : Rgba where
  r := BitVec.ofNat 8 i
  g := BitVec.ofNat 8 i
  b := BitVec.ofNat 8 i
  a := BitVec.ofNat 8 a

/-- Whether an output of `n` bytes is within `DST_CAP` (R54). -/
abbrev OutputFits (s : State) (n : Nat) : Prop := fits s.config.dstCap n = true

/-- What R166 to R174 say of a format without a palette, in the frame of R165: enough bytes give the stream of `quad`,
fewer end in `TruncatedInput` (code 1). -/
def DecodesPlainly (i : Instr) (fmt : ImageFormat) (quad : State → Nat → Rgba) : Prop :=
  ∀ s, OutputFits s (4 * npix s) →
    (needBytes fmt (npix s) ≤ s.srcLen.toNat → Outputs i s (4 * npix s) (streamByte (quad s))) ∧
    (s.srcLen.toNat < needBytes fmt (npix s) → Fails i s 1 0)

/-- Where the spec or every reading of the source says where each 4-bit pixel lies (R59, U10): pixel `p` at half byte
`p`. -/
abbrev LayoutStated (s : State) : Prop :=
  s.config.packLinear = true ∨ s.width.toNat % 2 = 0 ∨ s.height.toNat ≤ 1

/-- What R170 and R173 say of a 4-bit format without a palette. Where the layout is stated pixel `q` is at half byte `q`
and the image needs the bytes of R58; in any layout an image whose pixels all lie in SRC gives its stream and a pixel
beyond SRC ends in `TruncatedInput`. The pixel at half byte `p` is `quad s p`. -/
def DecodesNibbles (i : Instr) (fmt : ImageFormat) (quad : State → Nat → Rgba) : Prop :=
  ∀ s, OutputFits s (4 * npix s) →
    (LayoutStated s →
      (needBytes fmt (npix s) ≤ s.srcLen.toNat → Outputs i s (4 * npix s) (streamByte (quad s))) ∧
      (s.srcLen.toNat < needBytes fmt (npix s) → Fails i s 1 0)) ∧
    ((∀ q, q < npix s → s.position q / 2 < s.srcLen.toNat) →
      Outputs i s (4 * npix s) (streamByte (fun q => quad s (s.position q)))) ∧
    (∀ q, q < npix s → s.srcLen.toNat ≤ s.position q / 2 → Fails i s 1 0)

/-- The bytes of pixel `q` lie in SRC (R53, R58, R61). -/
abbrev PixelPresent (fmt : ImageFormat) (s : State) (q : Nat) : Prop :=
  if bitsPerPixel fmt = 4 then s.position q / 2 < s.srcLen.toNat
  else (q + 1) * (bitsPerPixel fmt / 8) ≤ s.srcLen.toNat

/-- What R168 and R169 say of an indexed format with a palette, in the frame of R165 and in the order of R175. Pixel `q`
is present when `present s q` and its palette index is `index s q`. A short palette ends in `TruncatedInput`; then the
first pixel that is missing ends in `TruncatedInput` (code 1), the first whose index is not below the entry count in
`PaletteIndexOutOfRange` (code 4); without either the output is the stream of the palette's entries. -/
def DecodesIndexed (i : Instr) (psz : PaletteSize) (present : State → Nat → Prop) (index : State → Nat → Nat) : Prop :=
  ∀ s,
    (s.palLen.toNat < 2 * entries s.config psz → Fails i s 1 0) ∧
    (2 * entries s.config psz ≤ s.palLen.toNat → OutputFits s (4 * npix s) →
      ((∀ q, q < npix s → present s q ∧ index s q < entries s.config psz) →
        Outputs i s (4 * npix s) (streamByte (fun q => unpackedQuad (halfNumber s .pal (2 * index s q))))) ∧
      (∀ q, q < npix s → (∀ k, k < q → present s k ∧ index s k < entries s.config psz) →
        (¬ present s q → Fails i s 1 0) ∧
        (present s q → entries s.config psz ≤ index s q → Fails i s 4 0)))

/-- Which error an indexed decode reports whose output passes a finite `DST_CAP` of `c` bytes (R267 (3) to (5)). The
output stops at pixel `c / 4`. The first pixel up to that one that is missing or has a bad index decides; without one it
is `Io` (code 5), whatever later pixels hold. -/
def IndexedErrorOrder (i : Instr) (psz : PaletteSize) (present : State → Nat → Prop) (index : State → Nat → Nat) : Prop :=
  ∀ s c, s.config.dstCap = some c → c < 4 * npix s → 2 * entries s.config psz ≤ s.palLen.toNat →
    ((∀ q, q ≤ c / 4 → present s q ∧ index s q < entries s.config psz) → Fails i s 5 0) ∧
    (∀ q, q ≤ c / 4 → (∀ k, k < q → present s k ∧ index s k < entries s.config psz) →
      (¬ present s q → Fails i s 1 0) ∧
      (present s q → entries s.config psz ≤ index s q → Fails i s 4 0))

/-- The byte that holds 4-bit pixel `q` lies in SRC. -/
abbrev nibblePresent (s : State) (q : Nat) : Prop := s.position q / 2 < s.srcLen.toNat

/-- The 4-bit palette index of pixel `q`. -/
def nibbleIndex (s : State) (q : Nat) : Nat := nibbleNumber s (s.position q)

/-- The byte of pixel `q` of an 8-bit format lies in SRC. -/
abbrev bytePresent (s : State) (q : Nat) : Prop := q < s.srcLen.toNat

/-- What R201 says of a group arm of stride `k` that emits `m` bytes per group: byte `j` of the group at SRC offset `o`
is `out s o j`. -/
def EncodesGroups (i : Instr) (s : State) (k m : Nat) (out : Nat → Nat → Byte) : Prop :=
  OutputFits s (s.srcLen.toNat / k * m) →
    Outputs i s (s.srcLen.toNat / k * m) (fun n => out (k * (n / m)) (n % m))

/-- Byte `k` of SRC as a number. -/
def srcNumber (s : State) (k : Nat) : Nat := (s.byteAt .src k).toNat

/-- Intensity of the RGB triple at a SRC offset (R133). -/
def srcLuma (s : State) (k : Nat) : Nat :=
  lumaNumber s.config.lumaRule (s.byteAt .src k) (s.byteAt .src (k + 1)) (s.byteAt .src (k + 2))

/-- The I4 fold of two intensities (R205). -/
def foldNumber (i0 i1 : Nat) : Byte := BitVec.ofNat 8 (i0 / 16 * 16 + i1 / 16)

/-- The index fold of two bytes (R218). -/
def indexFoldNumber (first second : Nat) : Byte := BitVec.ofNat 8 ((first * 16 % 256) ||| second)

/-- The IA4 nibble of a grey and an alpha byte (R214). -/
def ia4Number (g a : Nat) : Nat := g / 32 * 2 + (if 127 < a then 1 else 0)

/-- The encode on `u` succeeds and its output is the native image that SRC of `s` holds (R222). -/
def Reproduces (enc : Instr) (u s : State) : Prop :=
  ∃ v, exec enc u = .next v ∧ v.status = 1#32 ∧ v.dstLen = s.srcLen ∧
    ∀ k, k < s.srcLen.toNat → v.byteAt .dst k = s.byteAt .src k

/-- `t` is the outcome of a successful decode of an image of format `fmt` whose native buffer has exactly the bytes it
needs (R222). -/
def DecodedExactly (dec : Instr) (fmt : ImageFormat) (s t : State) : Prop :=
  exec dec s = .next t ∧ t.status = 1#32 ∧ s.srcLen.toNat = needBytes fmt (npix s)

/-- SRC of `u` is the RGBA8 stream in DST of `t`: `D` of R222. -/
def HoldsStream (u t : State) (n : Nat) : Prop :=
  u.srcLen.toNat = 4 * n ∧ ∀ k, k < 4 * n → u.byteAt .src k = t.byteAt .dst k

/-- SRC of `u` is the grey channel of the stream in DST of `t`: `gray(D)` of R222. -/
def HoldsGray (u t : State) (n : Nat) : Prop :=
  u.srcLen.toNat = n ∧ ∀ q, q < n → u.byteAt .src q = t.byteAt .dst (4 * q)

/-- SRC of `u` is the grey and alpha pairs of the stream in DST of `t`: `ga(D)` of R222. -/
def HoldsGrayAlpha (u t : State) (n : Nat) : Prop :=
  u.srcLen.toNat = 2 * n ∧ ∀ q, q < n →
    u.byteAt .src (2 * q) = t.byteAt .dst (4 * q) ∧ u.byteAt .src (2 * q + 1) = t.byteAt .dst (4 * q + 3)

/-- Two states that agree on everything an operation may read (R14). -/
structure SameInputs (s u : State) : Prop where
  width : u.width = s.width
  height : u.height = s.height
  srcLen : u.srcLen = s.srcLen
  palLen : u.palLen = s.palLen
  arg : u.arg = s.arg
  config : u.config = s.config
  src : ∀ k, k < s.srcLen.toNat → u.byteAt .src k = s.byteAt .src k
  pal : ∀ k, k < s.palLen.toNat → u.byteAt .pal k = s.byteAt .pal k

end Sys2Proof.Machine
end

