-- ==== Sys2Proof/Certificates/Slice0/Obligations.lean ====
section
/-! DEFINITION. The statements for the provers, in the order of OBLIGATIONS.json. -/

open Sys2Proof Sys2Proof.Machine

/-! ## Reset, the host and the step -/

/-- R34: every register reads 0 after reset and no byte of a buffer has a recorded value (each is a free value, log 4). -/
def Obligations.ResetZeroesRegistersAndLeavesBuffersUnspecified : Prop :=
  (∀ n, n ≤ 9 → State.reset.register n = some 0#32) ∧
  stateField State.reset.status = RunState.idle.code ∧ errKindField State.reset.status = 0 ∧
  (∀ sp k, (State.reset.memory sp).recorded k = none) ∧
  State.reset.srcView.len = 0 ∧ State.reset.palView.len = 0

/-- R290, log 13: a reset between operations zeroes the registers and redraws the contents of the buffers. The
configuration, the host's queue and its replies are the model's own and stay. -/
def Obligations.ResetActionZeroesTheBlock : Prop :=
  ∀ s rest, s.host = .reset :: rest →
    ∃ t, step s = .next t ∧ (∀ n, n ≤ 9 → t.register n = some 0#32) ∧
      (∀ sp k, (t.memory sp).recorded k = none) ∧ (∀ sp, (t.memory sp).epoch = s.freeIdx) ∧
      t.freeIdx = s.freeIdx + 1 ∧ t.config = s.config ∧ t.host = rest ∧ t.replies = s.replies

/-- The invariant holds after reset, with the model's own reset values of log 1, 3 and 4. -/
def Obligations.ResetMeetsTheInvariant : Prop := StateInv State.reset

/-- Every step keeps the invariant: the fields of `STATUS` and `ERRINFO` stay legal (R25, R26), the output is recorded
(R27), the lengths stay within the capacities (R23) and the buffers in canonical form (the last two clauses are the
model's form of a buffer, log 4 and 9). -/
def Obligations.StepKeepsTheInvariant : Prop :=
  ∀ s t, StateInv s → step s = .next t → StateInv t

/-- R29: a CMD write whose word decodes runs the decoded operation on the state in which `CMD` holds the word and
`DST_LEN`, `ERRINFO` and `STATUS` are 0. That the write is the head of a queue in the state is the model's choice
(log 1). -/
def Obligations.StepRunsTheDecodedOperation : Prop :=
  ∀ s c i rest, s.host = .writeReg 0 c :: rest → decode c = .ok i →
    step s = exec i { s with host := rest, cmd := c, dstLen := 0#32, errInfo := 0#32, status := 0#32 }

/-- R88, R265: the reserved words are exactly the listed ones, and issuing one raises `IllegalCommand` (code 6). The
word is issued from the host queue (log 1). -/
def Obligations.ReservedWordsRaiseIllegalCommand : Prop :=
  ∀ c, (reservedWord c ↔ ∃ r, decode c = .error r) ∧
    (reservedWord c → ∀ s rest, s.host = .writeReg 0 c :: rest →
      ∃ t, step s = .next t ∧ ErrorEntered { s with host := rest, cmd := c } t 6 0)

/-- R81, R100: decoding and encoding are inverse between the well-formed operations and the words that are not
reserved. -/
def Obligations.DecodeAndEncodeAgree : Prop :=
  (∀ i : Instr, i.wellFormed = true → decode (encode i) = .ok i) ∧
  (∀ c i, decode c = .ok i → i.wellFormed = true ∧ encode i = c)

/-- R100: some words of the opcode map, written out, decode to their operations: all nine of DEC, one or more of every
other class. -/
def Obligations.OpcodeMapWordsDecode : Prop :=
  decode 0x02000000#32 = .ok .luma ∧
  decode 0x1100A000#32 = .ok (.tlutLookup .s8b) ∧
  decode 0x20000000#32 = .ok (.decI4 false .s4b) ∧
  decode 0x21000000#32 = .ok (.decI8 false .s4b) ∧
  decode 0x22000000#32 = .ok (.decIA4 false .s4b) ∧
  decode 0x23000000#32 = .ok (.decIA8 false .s4b) ∧
  decode 0x24000000#32 = .ok (.decIA16 false .s4b) ∧
  decode 0x25000000#32 = .ok (.decCI4 false .s4b) ∧
  decode 0x26000000#32 = .ok (.decCI8 false .s4b) ∧
  decode 0x27000000#32 = .ok (.decRGBA16 false .s4b) ∧
  decode 0x28000000#32 = .ok (.decRGBA32 false .s4b) ∧
  decode 0x2500E000#32 = .ok (.decCI4 true .s32b) ∧
  decode 0x28002000#32 = .ok (.decRGBA32 false .s8b) ∧
  decode 0x35880000#32 = .ok .encCI4IDX8 ∧
  decode 0x301F0000#32 = .ok (.encI4Other .g 31#5) ∧
  decode 0x48000000#32 = .ok .metaRGBA32

/-- R30: a write to one of the five descriptor registers stores the value and has no other effect (a length only where
its space has the capacity, U9), a write to a read-only register or above 9 is refused, and a read returns the current
value and has no side effect. The queue the actions come from and the list the replies go to are the model's choice
(log 1, 9, 12). -/
def Obligations.HostRegisterAccess : Prop :=
  ∀ s v rest,
    (s.host = .writeReg 1 v :: rest → step s = .next { s with host := rest, width := v }) ∧
    (s.host = .writeReg 2 v :: rest → step s = .next { s with host := rest, height := v }) ∧
    (s.host = .writeReg 3 v :: rest → fits s.config.srcCap v.toNat = true →
      step s = .next { s with host := rest, srcLen := v }) ∧
    (s.host = .writeReg 4 v :: rest → fits s.config.palCap v.toNat = true →
      step s = .next { s with host := rest, palLen := v }) ∧
    (s.host = .writeReg 5 v :: rest → step s = .next { s with host := rest, arg := v }) ∧
    (∀ n, 6 ≤ n → s.host = .writeReg n v :: rest → ∃ r, step s = .refused r) ∧
    (∀ n w, s.register n = some w → s.host = .readReg n :: rest →
      step s = .next { s with host := rest, replies := s.replies ++ [.reg n w] }) ∧
    (∀ n, 10 ≤ n → s.host = .readReg n :: rest → ∃ r, step s = .refused r)

/-- R21: the ten registers and their numbers. -/
def Obligations.RegisterNumbers : Prop :=
  ∀ s : State,
    s.register 0 = some s.cmd ∧ s.register 1 = some s.width ∧ s.register 2 = some s.height ∧
    s.register 3 = some s.srcLen ∧ s.register 4 = some s.palLen ∧ s.register 5 = some s.arg ∧
    s.register 6 = some s.res ∧ s.register 7 = some s.status ∧ s.register 8 = some s.errInfo ∧
    s.register 9 = some s.dstLen ∧ ∀ n, 10 ≤ n → s.register n = none

/-- R51, R62: a host byte write to SRC or PAL is read back, and every other byte of every space and every register is
unchanged. The canonical form is kept. The bound by a finite capacity is the model's choice (log 9). -/
def Obligations.HostByteWriteChangesOneByte : Prop :=
  ∀ s sp off b rest, sp ≠ Space.dst → fits (capacity s.config sp) (off + 1) = true →
    s.host = .writeByte sp off b :: rest →
    ∃ t, step s = .next t ∧ t.byteAt sp off = b ∧ (∀ k, k ≠ off → t.byteAt sp k = s.byteAt sp k) ∧
      (∀ sp', sp' ≠ sp → t.memory sp' = s.memory sp') ∧ ((s.memory sp).wf → (t.memory sp).wf) ∧
      t = { s with host := rest, src := t.src, pal := t.pal }

/-- R51: a host byte read returns the byte and has no side effect (the reply list is the model's, log 12). -/
def Obligations.HostByteReadReturnsTheByte : Prop :=
  ∀ s sp off rest, fits (capacity s.config sp) (off + 1) = true → s.host = .readByte sp off :: rest →
    step s = .next { s with host := rest, replies := s.replies ++ [.byte sp off (s.byteAt sp off)] }

/-- U8, U9, and the model's choice of log 9: a step stops exactly where its host action is one the spec gives no behaviour. -/
def Obligations.StepStopsExactlyOnIllegalHostActions : Prop :=
  ∀ s a rest, s.host = a :: rest → ((∃ t, step s = .next t) ↔ legalAction s a = true)

/-- R29, and the model's choice of log 2: with no host action pending nothing is issued and nothing changes. -/
def Obligations.IdleStepChangesNothing : Prop :=
  ∀ s, s.host = [] → step s = .next s

/-- R271: what an issue does is independent of the status, the error information, the length and the word the operation
before it left. -/
def Obligations.IssueForgetsTheEarlierOutcome : Prop :=
  ∀ s c rest cmd status errInfo dstLen, s.host = .writeReg 0 c :: rest →
    step { s with cmd := cmd, status := status, errInfo := errInfo, dstLen := dstLen } = step s

/-! ## Whole-machine rules -/

/-- R270: an operation that ends in `STATE = ERR` has entered one of the errors 1 to 5 as the rule says: `ERRINFO` is
bits 23:16 of its word for `InvalidSourceShape` (3) and 0 otherwise, `DST_LEN` is 0, DST is unspecified, and every
register, SRC and PAL are unchanged. That "unspecified" means free values drawn afresh is the model's form (log 4,
5). -/
def Obligations.ErrorEntryFrame : Prop :=
  ∀ i s t, exec i s = .next t → stateField t.status = 2 →
    ∃ code, 1 ≤ code ∧ code ≤ 5 ∧
      ErrorEntered s t code (if code = 3 then (encode i >>> 16) &&& 0xFF#32 else 0#32)

/-- R21, R51: no operation writes `CMD`, a descriptor register, SRC or PAL. -/
def Obligations.OperationsNeverWriteTheirInputs : Prop :=
  ∀ i s t, exec i s = .next t →
    t = { s with res := t.res, status := t.status, errInfo := t.errInfo, dstLen := t.dstLen, dst := t.dst,
                 freeIdx := t.freeIdx }

/-- R14, R29: every operation runs to its end in every state, in `DONE` without an error recorded or in `ERR`. -/
def Obligations.EveryOperationEndsDoneOrErr : Prop :=
  ∀ i s, ∃ t, exec i s = .next t ∧
    ((t.status = 1#32 ∧ t.errInfo = 0#32) ∨
      (stateField t.status = 2 ∧ errKindField t.status ≠ 0 ∧ errKindField t.status ≠ 7))

/-- R28: `RES` is written only by a successful operation that has a result. -/
def Obligations.ResultRegisterKeptOtherwise : Prop :=
  ∀ i s t, exec i s = .next t → (returnsResult i = false ∨ stateField t.status = 2) → t.res = s.res

/-- R27: a successful operation either has a result, writes no byte and leaves `DST_LEN` 0, or records exactly
`outputLength i s` bytes (R151, R165, R177, R201) from offset 0 and counts them in `DST_LEN` (the number where 32 bits hold it, else a free value
that depends on the number alone, log 7). A failing one leaves `DST_LEN` 0. -/
def Obligations.OutputLengthCountsTheOutput : Prop :=
  ∀ i s t, exec i s = .next t →
    (t.status = 1#32 → returnsResult i = true → t.dstLen = 0#32 ∧ t.dst = s.dst) ∧
    (t.status = 1#32 → returnsResult i = false →
      t.dstLen = (if outputLength i s < 2 ^ 32 then BitVec.ofNat 32 (outputLength i s)
        else Config.unstatedLength (outputLength i s)) ∧
      OutputDone s t (outputLength i s) (t.byteAt .dst)) ∧
    (stateField t.status = 2 → t.dstLen = 0#32)

/-- R14, R33: two runs of an operation that agree on the registers it may read, on the first `SRC_LEN` bytes of SRC, the
first `PAL_LEN` bytes of PAL and the configuration end alike, whatever else the states hold. -/
def Obligations.ResultsDependOnInputsOnly : Prop :=
  ∀ i s u t v, SameInputs s u → exec i s = .next t → exec i u = .next v →
    v.status = t.status ∧ v.errInfo = t.errInfo ∧ v.dstLen = t.dstLen ∧
    (t.status = 1#32 → ∀ k, k < t.dstLen.toNat → v.byteAt .dst k = t.byteAt .dst k) ∧
    (t.status = 1#32 → returnsResult i = true → v.res = t.res)

/-! ## Colour primitives -/

/-- R131: word, result and frame of `PACK16`. -/
def Obligations.PackResult : Prop :=
  decode 0x00000000#32 = .ok .pack16 ∧
  ∀ s : State, Returns .pack16 s (BitVec.ofNat 32 (packedNumber (s.arg.toNat / 2 ^ 24)
    (s.arg.toNat / 2 ^ 16 % 256) (s.arg.toNat / 2 ^ 8 % 256) (s.arg.toNat % 256)))

/-- R132: word, result and frame of `UNPACK16`; `ARG[31:16]` is ignored. -/
def Obligations.UnpackResult : Prop :=
  decode 0x01000000#32 = .ok .unpack16 ∧
  ∀ s : State, Returns .unpack16 s (BitVec.ofNat 32 (quadNumber (unpackedQuad (s.arg.toNat % 2 ^ 16))))

/-- R133: word, result and frame of `LUMA`; `ARG[7:0]` is ignored. The exact evaluation is the spec's decision D13;
under another value of the parameter the result is what that value gives (U6, log 8). -/
def Obligations.LumaResult : Prop :=
  decode 0x02000000#32 = .ok .luma ∧
  ∀ s : State,
    (s.config.lumaRule = .exactIntegers → Returns .luma s (BitVec.ofNat 32 ((2126 * (s.arg.toNat / 2 ^ 24)
      + 7152 * (s.arg.toNat / 2 ^ 16 % 256) + 722 * (s.arg.toNat / 2 ^ 8 % 256)) / 10000))) ∧
    Returns .luma s (BitVec.ofNat 32 (luma s.config.lumaRule (BitVec.ofNat 8 (s.arg.toNat / 2 ^ 24))
      (BitVec.ofNat 8 (s.arg.toNat / 2 ^ 16)) (BitVec.ofNat 8 (s.arg.toNat / 2 ^ 8))).toNat)

/-- R134: pack then unpack. -/
def Obligations.PackThenUnpack : Prop :=
  ∀ r g b a : Byte, unpack16 (pack16 (Rgba.mk r g b a)) =
    Rgba.mk (r &&& 0xF8#8) (g &&& 0xF8#8) (b &&& 0xF8#8) (if a = 255#8 then 255#8 else 0#8)

/-- R135: unpack then pack is the identity. -/
def Obligations.UnpackThenPack : Prop :=
  ∀ p : Half, pack16 (unpack16 p) = p

/-- R136: the three values the source fixes, which every value of the parameter has (U6), the further ones of the exact
formula, and that grey is fixed by it. -/
def Obligations.LumaFixedValues : Prop :=
  (∀ rule, luma rule 255#8 255#8 255#8 = 255#8 ∧ luma rule 0#8 0#8 0#8 = 0#8 ∧ luma rule 255#8 0#8 0#8 = 54#8) ∧
  luma .exactIntegers 0#8 255#8 0#8 = 182#8 ∧ luma .exactIntegers 0#8 0#8 255#8 = 18#8 ∧
  ∀ v : Byte, luma .exactIntegers v v v = v

/-! ## Palette table -/

/-- R86: PaletteSize codes and entry counts. -/
def Obligations.PaletteSizeCodesAndEntries : Prop :=
  PaletteSize.s4b.code = 0 ∧ PaletteSize.s8b.code = 1 ∧ PaletteSize.s16b.code = 2 ∧ PaletteSize.s32b.code = 3 ∧
  (∀ cfg, entries cfg .s4b = cfg.nS4B ∧ entries cfg .s8b = cfg.nS8B ∧ entries cfg .s16b = cfg.nS16B ∧
    entries cfg .s32b = cfg.nS32B) ∧
  entries Config.default .s4b = 16 ∧ entries Config.default .s8b = 256 ∧
  entries Config.default .s16b = 4096 ∧ entries Config.default .s32b = 65536

/-- R151: words, short palette, and the decoded table as the output of `TLUT.DECODE`. -/
def Obligations.TlutDecodeResult : Prop :=
  ∀ psz : PaletteSize,
    decode (BitVec.ofNat 32 (0x10008000 + psz.code.toNat * 2 ^ 13)) = .ok (.tlutDecode psz) ∧
    ∀ s : State,
      (s.palLen.toNat < 2 * entries s.config psz → Fails (.tlutDecode psz) s 1 0) ∧
      (2 * entries s.config psz ≤ s.palLen.toNat → OutputFits s (4 * entries s.config psz) →
        Outputs (.tlutDecode psz) s (4 * entries s.config psz)
          (streamByte (fun e => unpackedQuad (halfNumber s .pal (2 * e)))))

/-- R152: words, short palette, index out of range, and the entry in `RES`. -/
def Obligations.TlutLookupResult : Prop :=
  ∀ psz : PaletteSize,
    decode (BitVec.ofNat 32 (0x11008000 + psz.code.toNat * 2 ^ 13)) = .ok (.tlutLookup psz) ∧
    ∀ s : State,
      (s.palLen.toNat < 2 * entries s.config psz → Fails (.tlutLookup psz) s 1 0) ∧
      (2 * entries s.config psz ≤ s.palLen.toNat → entries s.config psz ≤ s.arg.toNat % 256 →
        Fails (.tlutLookup psz) s 4 0) ∧
      (2 * entries s.config psz ≤ s.palLen.toNat → s.arg.toNat % 256 < entries s.config psz →
        Returns (.tlutLookup psz) s
          (BitVec.ofNat 32 (quadNumber (unpackedQuad (halfNumber s .pal (2 * (s.arg.toNat % 256)))))))

/-! ## Decode -/

/-- R166. -/
def Obligations.DecodeRGBA32Result : Prop :=
  ∀ p psz, DecodesPlainly (.decRGBA32 p psz) .rgba32 (fun s q =>
    Rgba.mk (s.byteAt .src (4 * q)) (s.byteAt .src (4 * q + 1)) (s.byteAt .src (4 * q + 2)) (s.byteAt .src (4 * q + 3)))

/-- R167. -/
def Obligations.DecodeRGBA16Result : Prop :=
  ∀ p psz, DecodesPlainly (.decRGBA16 p psz) .rgba16 (fun s q => unpackedQuad (halfNumber s .src (2 * q)))

/-- R168: `MissingPalette` without a palette, the frame of an indexed decode with one, and that with at least 16 entries
no index is out of range. The order of the errors is R165 and R175, the spec's decisions D9 and D10 (log 15). Where a
pixel lies in a layout that is not stated is the model's form of U10 (log 10). -/
def Obligations.DecodeCI4Result : Prop :=
  (∀ psz s, Fails (.decCI4 false psz) s 2 0) ∧
  (∀ psz, DecodesIndexed (.decCI4 true psz) psz nibblePresent nibbleIndex) ∧
  (∀ psz, 16 ≤ entries Config.default psz) ∧
  (∀ psz s, 2 * entries s.config psz ≤ s.palLen.toNat → OutputFits s (4 * npix s) → 16 ≤ entries s.config psz →
    LayoutStated s → (needBytes .ci4 (npix s) ≤ s.srcLen.toNat → Outputs (.decCI4 true psz) s (4 * npix s)
      (streamByte (fun q => unpackedQuad (halfNumber s .pal (2 * nibbleNumber s q))))) ∧
    (s.srcLen.toNat < needBytes .ci4 (npix s) → Fails (.decCI4 true psz) s 1 0))

/-- R169: `MissingPalette` without a palette, the frame of an indexed decode with one, and that with 256 entries or more
no index is out of range. The order of the errors is R165 and R175, the spec's decisions D9 and D10 (log 15). -/
def Obligations.DecodeCI8Result : Prop :=
  (∀ psz s, Fails (.decCI8 false psz) s 2 0) ∧
  (∀ psz, DecodesIndexed (.decCI8 true psz) psz bytePresent srcNumber) ∧
  (∀ psz s, 2 * entries s.config psz ≤ s.palLen.toNat → OutputFits s (4 * npix s) → 256 ≤ entries s.config psz →
    (needBytes .ci8 (npix s) ≤ s.srcLen.toNat → Outputs (.decCI8 true psz) s (4 * npix s)
      (streamByte (fun q => unpackedQuad (halfNumber s .pal (2 * srcNumber s q))))) ∧
    (s.srcLen.toNat < needBytes .ci8 (npix s) → Fails (.decCI8 true psz) s 1 0))

/-- R170: three bits of grey times 32, one of alpha times 255, the nibble order as the configuration says. The
clauses on a layout that is not stated rest on the model's form of U10 (log 10). -/
def Obligations.DecodeIA4Result : Prop :=
  ∀ p psz, DecodesNibbles (.decIA4 p psz) .ia4 (fun s q =>
    let n := if s.config.ia4HighFirst then nibbleNumber s q else nibbleNumberLowFirst s q
    grayNumber (n / 2 * 32) (n % 2 * 255))

/-- R171. -/
def Obligations.DecodeIA8Result : Prop :=
  ∀ p psz, DecodesPlainly (.decIA8 p psz) .ia8 (fun s q =>
    grayNumber (srcNumber s q / 16 * 16) (srcNumber s q % 16 * 16))

/-- R172. -/
def Obligations.DecodeIA16Result : Prop :=
  ∀ p psz, DecodesPlainly (.decIA16 p psz) .ia16 (fun s q =>
    grayNumber (srcNumber s (2 * q)) (srcNumber s (2 * q + 1)))

/-- R173, C1: alpha is the intensity. The clauses on a layout that is not stated rest on the model's form of U10
(log 10). -/
def Obligations.DecodeI4Result : Prop :=
  ∀ p psz, DecodesNibbles (.decI4 p psz) .i4 (fun s q => grayNumber (nibbleNumber s q * 16) (nibbleNumber s q * 16))

/-- R174. -/
def Obligations.DecodeI8Result : Prop :=
  ∀ p psz, DecodesPlainly (.decI8 p psz) .i8 (fun s q => grayNumber (srcNumber s q) (srcNumber s q))

/-- R90: the bytes an image needs, format by format. -/
def Obligations.NeededBytesTable : Prop :=
  ∀ n, needBytes .i4 n = (n + 1) / 2 ∧ needBytes .i8 n = n ∧ needBytes .ia4 n = (n + 1) / 2 ∧ needBytes .ia8 n = n ∧
    needBytes .ia16 n = 2 * n ∧ needBytes .ci4 n = (n + 1) / 2 ∧ needBytes .ci8 n = n ∧ needBytes .rgba16 n = 2 * n ∧
    needBytes .rgba32 n = 4 * n

/-- R262: without a palette an indexed decode ends in `MissingPalette`, whatever the buffers and dimensions are. -/
def Obligations.MissingPaletteComesFirst : Prop :=
  ∀ c i s, decode c = .ok i → (decodedFormat i = some .ci4 ∨ decodedFormat i = some .ci8) →
    c.toNat / 2 ^ 15 % 2 = 0 → Fails i s 2 0

/-- R175, R266, R267: a decode without a palette whose output passes a finite `DST_CAP` of `c` bytes reports what it
meets first: a missing byte of pixel `c / 4` or an earlier one, else `Io` (5) at the emission of that pixel. The order is
the spec's decision D9 (log 15). Where a 4-bit pixel lies in a layout that is not stated is the model's form of U10
(log 10). -/
def Obligations.DecodeBeyondCapacityOrder : Prop :=
  ∀ i fmt s c, decodedFormat i = some fmt → fmt ≠ .ci4 → fmt ≠ .ci8 → s.config.dstCap = some c → c < 4 * npix s →
    ((∀ q, q ≤ c / 4 → PixelPresent fmt s q) → Fails i s 5 0) ∧
    (∀ q, q ≤ c / 4 → ¬ PixelPresent fmt s q → Fails i s 1 0)

/-- R267 (3) to (5), R175: an indexed decode with a palette whose output passes a finite `DST_CAP` and that may also have
missing bytes or bad indices, before or after the pixel at which the output stops. The order is the spec's decision D9
(log 15). Where a CI4 pixel lies in a layout that is not stated is the model's form of U10 (log 10). -/
def Obligations.IndexedDecodeBeyondCapacityOrder : Prop :=
  ∀ psz, IndexedErrorOrder (.decCI4 true psz) psz nibblePresent nibbleIndex ∧
    IndexedErrorOrder (.decCI8 true psz) psz bytePresent srcNumber

/-- R87, R176: a decode without a palette depends neither on `P`, `PSZ`, PAL and `PAL_LEN` nor on the dimensions beyond
their product (for a 4-bit format where both layouts are stated, as they are with `PACK_LINEAR`). -/
def Obligations.PlainDecodeIgnoresPaletteAndShape : Prop :=
  ∀ i j fmt s u t, decodedFormat i = some fmt → decodedFormat j = some fmt → fmt ≠ .ci4 → fmt ≠ .ci8 →
    u = { s with width := u.width, height := u.height, palLen := u.palLen, pal := u.pal } → npix u = npix s →
    (bitsPerPixel fmt = 4 → LayoutStated s ∧ LayoutStated u) →
    exec i s = .next t →
    exec j u = .next { t with width := u.width, height := u.height, palLen := u.palLen, pal := u.pal }

/-- R178: the grey formats decode to grey, with the listed bits clear. -/
def Obligations.GrayStreams : Prop :=
  ∀ i fmt s t q, decodedFormat i = some fmt → exec i s = .next t → t.status = 1#32 → q < npix s →
    let r := (t.byteAt .dst (4 * q)).toNat
    let g := (t.byteAt .dst (4 * q + 1)).toNat
    let b := (t.byteAt .dst (4 * q + 2)).toNat
    let a := (t.byteAt .dst (4 * q + 3)).toNat
    (fmt ∈ [ImageFormat.i4, .i8, .ia4, .ia8, .ia16] → r = g ∧ g = b) ∧
    (fmt ∈ [ImageFormat.i4, .i8] → a = r) ∧
    (fmt ∈ [ImageFormat.i4, .ia8] → r % 16 = 0 ∧ a % 16 = 0) ∧
    (fmt = .ia4 → r % 32 = 0)

/-- R177: a successful decode leaves `DST_LEN = 4 * W * H` (where 32 bits hold it, log 7) and that many recorded bytes,
a failing one leaves 0, and the dimensions stay. -/
def Obligations.DecodeOutputLength : Prop :=
  ∀ i fmt s t, decodedFormat i = some fmt → exec i s = .next t →
    (t.status = 1#32 → (4 * npix s < 2 ^ 32 → t.dstLen.toNat = 4 * s.width.toNat * s.height.toNat) ∧
      ∀ k, k < 4 * npix s → (t.dst.recorded k).isSome) ∧
    (t.status ≠ 1#32 → t.dstLen = 0#32) ∧ t.width = s.width ∧ t.height = s.height

/-! ## Encode -/

/-- R202, R204, R209, R216, R217, R219: the verbatim arms copy SRC whole. -/
def Obligations.VerbatimEncodes : Prop :=
  decode 0x38680000#32 = .ok .encRGBA32RGBA8 ∧ decode 0x30040000#32 = .ok .encI4G4 ∧
  decode 0x31080000#32 = .ok .encI8G8 ∧ decode 0x34280000#32 = .ok .encIA16GA8 ∧
  decode 0x35840000#32 = .ok .encCI4IDX4 ∧ decode 0x36880000#32 = .ok .encCI8IDX8 ∧
  ∀ s : State, OutputFits s s.srcLen.toNat →
    Outputs .encRGBA32RGBA8 s s.srcLen.toNat (s.byteAt .src) ∧
    Outputs .encI4G4 s s.srcLen.toNat (s.byteAt .src) ∧
    Outputs .encI8G8 s s.srcLen.toNat (s.byteAt .src) ∧
    Outputs .encIA16GA8 s s.srcLen.toNat (s.byteAt .src) ∧
    Outputs .encCI4IDX4 s s.srcLen.toNat (s.byteAt .src) ∧
    Outputs .encCI8IDX8 s s.srcLen.toNat (s.byteAt .src)

/-- R203: each whole pixel packed, high byte first; a partial group is dropped. -/
def Obligations.EncodeRGBA16Result : Prop :=
  decode 0x37680000#32 = .ok .encRGBA16RGBA8 ∧
  ∀ s, EncodesGroups .encRGBA16RGBA8 s 4 2 (fun o j =>
    let p := packedNumber (srcNumber s o) (srcNumber s (o + 1)) (srcNumber s (o + 2)) (srcNumber s (o + 3))
    if j = 0 then BitVec.ofNat 8 (p / 256) else BitVec.ofNat 8 (p % 256))

/-- R205 to R208: the I4 arms that fold two intensities, the double read of the RGBA arm as the configuration says. -/
def Obligations.EncodeI4Results : Prop :=
  decode 0x30080000#32 = .ok .encI4G8 ∧ decode 0x30280000#32 = .ok .encI4GA8 ∧
  decode 0x30480000#32 = .ok .encI4RGB8 ∧ decode 0x30680000#32 = .ok .encI4RGBA8 ∧
  ∀ s,
    EncodesGroups .encI4G8 s 2 1 (fun o _ => foldNumber (srcNumber s o) (srcNumber s (o + 1))) ∧
    EncodesGroups .encI4GA8 s 4 1 (fun o _ => foldNumber (srcNumber s o) (srcNumber s (o + 2))) ∧
    EncodesGroups .encI4RGB8 s 6 1 (fun o _ => foldNumber (srcLuma s o) (srcLuma s (o + 3))) ∧
    EncodesGroups .encI4RGBA8 s 8 1 (fun o _ =>
      foldNumber (srcLuma s o) (if s.config.i4RgbaDoubleRead then srcLuma s o else srcLuma s (o + 4)))

/-- R210 to R213: the I8 arms that are not verbatim, `ENC.I8.G4` in each of its readings. -/
def Obligations.EncodeI8Results : Prop :=
  decode 0x31040000#32 = .ok .encI8G4 ∧ decode 0x31280000#32 = .ok .encI8GA8 ∧
  decode 0x31480000#32 = .ok .encI8RGB8 ∧ decode 0x31680000#32 = .ok .encI8RGBA8 ∧
  ∀ s,
    (s.config.encI8G4Mode = .expandShift → EncodesGroups .encI8G4 s 1 2 (fun o j =>
      if j = 0 then BitVec.ofNat 8 (srcNumber s o / 16 * 16) else BitVec.ofNat 8 (srcNumber s o % 16 * 16))) ∧
    (s.config.encI8G4Mode = .expandReplicate → EncodesGroups .encI8G4 s 1 2 (fun o j =>
      if j = 0 then BitVec.ofNat 8 (srcNumber s o / 16 * 17) else BitVec.ofNat 8 (srcNumber s o % 16 * 17))) ∧
    (s.config.encI8G4Mode = .fold → EncodesGroups .encI8G4 s 2 1 (fun o _ =>
      indexFoldNumber (srcNumber s o) (srcNumber s (o + 1)))) ∧
    EncodesGroups .encI8GA8 s 2 1 (fun o _ => s.byteAt .src o) ∧
    EncodesGroups .encI8RGB8 s 3 1 (fun o _ => BitVec.ofNat 8 (srcLuma s o)) ∧
    EncodesGroups .encI8RGBA8 s 4 1 (fun o _ => BitVec.ofNat 8 (srcLuma s o))

/-- R214, R215: the IA4 and IA8 arms, with the nibble order and the grey mask as the configuration says. -/
def Obligations.EncodeIAResults : Prop :=
  decode 0x32280000#32 = .ok .encIA4GA8 ∧ decode 0x33280000#32 = .ok .encIA8GA8 ∧
  ∀ s,
    EncodesGroups .encIA4GA8 s 4 1 (fun o _ =>
      let n0 := ia4Number (srcNumber s o) (srcNumber s (o + 1))
      let n1 := ia4Number (srcNumber s (o + 2)) (srcNumber s (o + 3))
      if s.config.ia4HighFirst then BitVec.ofNat 8 (n0 * 16 + n1) else BitVec.ofNat 8 (n1 * 16 + n0)) ∧
    EncodesGroups .encIA8GA8 s 2 1 (fun o _ =>
      let g := if s.config.ia8EncMaskGray then srcNumber s o / 16 * 16 else srcNumber s o
      BitVec.ofNat 8 (g ||| srcNumber s (o + 1) / 16))

/-- R218, R220: the index fold. -/
def Obligations.EncodeIndexFolds : Prop :=
  decode 0x35880000#32 = .ok .encCI4IDX8 ∧ decode 0x36840000#32 = .ok .encCI8IDX4 ∧
  ∀ s,
    EncodesGroups .encCI4IDX8 s 2 1 (fun o _ => indexFoldNumber (srcNumber s o) (srcNumber s (o + 1))) ∧
    EncodesGroups .encCI8IDX4 s 2 1 (fun o _ => indexFoldNumber (srcNumber s o) (srcNumber s (o + 1)))

/-- R221: a word of a shape outside the whitelist is the catch-all of its format, and each catch-all ends in
`InvalidSourceShape` (3) with the shape in `ERRINFO`, in every state. As after every error (R270) DST is unspecified
then, a weaker claim than that nothing was written to it (log 5). -/
def Obligations.OtherShapesAreRefused : Prop :=
  (∀ fmt ct depth, accepted fmt ct depth = false →
    ∃ i, decode (BitVec.ofNat 32
        (0x30000000 + fmt.code.toNat * 2 ^ 24 + ct.code.toNat * 2 ^ 21 + depth.toNat * 2 ^ 16)) = .ok i ∧
      ∀ s, Fails i s 3 (BitVec.ofNat 32 (ct.code.toNat * 32 + depth.toNat))) ∧
  ∀ ct depth s,
    let shape := BitVec.ofNat 32 (ct.code.toNat * 32 + depth.toNat)
    Fails (.encI4Other ct depth) s 3 shape ∧ Fails (.encI8Other ct depth) s 3 shape ∧
    Fails (.encIA4Other ct depth) s 3 shape ∧ Fails (.encIA8Other ct depth) s 3 shape ∧
    Fails (.encIA16Other ct depth) s 3 shape ∧ Fails (.encCI4Other ct depth) s 3 shape ∧
    Fails (.encCI8Other ct depth) s 3 shape ∧ Fails (.encRGBA16Other ct depth) s 3 shape ∧
    Fails (.encRGBA32Other ct depth) s 3 shape

/-- R54, R266: an output of `TLUT.DECODE`, of an accepted encode arm or of an indexed decode without another error that
passes `DST_CAP` ends in `Io` (5). The lengths are those of R151, R165 and R201. Where a CI4 pixel lies in a layout that
is not stated is the model's form of U10 (log 10). -/
def Obligations.OutputBeyondCapacityIsIo : Prop :=
  ∀ s : State,
    (∀ psz, 2 * entries s.config psz ≤ s.palLen.toNat → ¬ OutputFits s (4 * entries s.config psz) →
      Fails (.tlutDecode psz) s 5 0) ∧
    (∀ i ∈ [Instr.encRGBA32RGBA8, .encI4G4, .encI8G8, .encIA16GA8, .encCI4IDX4, .encCI8IDX8],
      ¬ OutputFits s s.srcLen.toNat → Fails i s 5 0) ∧
    (∀ x ∈ [(Instr.encRGBA16RGBA8, 4, 2), (.encI4G8, 2, 1), (.encI4GA8, 4, 1), (.encI4RGB8, 6, 1), (.encI4RGBA8, 8, 1),
        (.encI8GA8, 2, 1), (.encI8RGB8, 3, 1), (.encI8RGBA8, 4, 1), (.encIA4GA8, 4, 1), (.encIA8GA8, 2, 1),
        (.encCI4IDX8, 2, 1), (.encCI8IDX4, 2, 1)],
      ¬ OutputFits s (s.srcLen.toNat / x.2.1 * x.2.2) → Fails x.1 s 5 0) ∧
    (s.config.encI8G4Mode ≠ .fold → ¬ OutputFits s (s.srcLen.toNat * 2) → Fails .encI8G4 s 5 0) ∧
    (s.config.encI8G4Mode = .fold → ¬ OutputFits s (s.srcLen.toNat / 2) → Fails .encI8G4 s 5 0) ∧
    (∀ psz, 2 * entries s.config psz ≤ s.palLen.toNat → ¬ OutputFits s (4 * npix s) →
      ((∀ q, q < npix s → nibblePresent s q ∧ nibbleIndex s q < entries s.config psz) →
        Fails (.decCI4 true psz) s 5 0) ∧
      ((∀ q, q < npix s → q < s.srcLen.toNat ∧ srcNumber s q < entries s.config psz) →
        Fails (.decCI8 true psz) s 5 0))

/-! ## Container metadata -/

/-- R250: words, `RES` and frame of the nine queries. -/
def Obligations.MetadataResults : Prop :=
  decode 0x40000000#32 = .ok .metaI4 ∧ decode 0x41000000#32 = .ok .metaI8 ∧ decode 0x42000000#32 = .ok .metaIA4 ∧
  decode 0x43000000#32 = .ok .metaIA8 ∧ decode 0x44000000#32 = .ok .metaIA16 ∧ decode 0x45000000#32 = .ok .metaCI4 ∧
  decode 0x46000000#32 = .ok .metaCI8 ∧ decode 0x47000000#32 = .ok .metaRGBA16 ∧
  decode 0x48000000#32 = .ok .metaRGBA32 ∧
  ∀ s : State,
    Returns .metaI4 s 0x68#32 ∧ Returns .metaI8 s 0x68#32 ∧ Returns .metaIA4 s 0x68#32 ∧ Returns .metaIA8 s 0x68#32 ∧
    Returns .metaIA16 s 0x68#32 ∧ Returns .metaCI4 s 0x188#32 ∧ Returns .metaCI8 s 0x188#32 ∧
    Returns .metaRGBA16 s 0x68#32 ∧ Returns .metaRGBA32 s 0x68#32

/-! ## Round trips -/

/-- R222: an RGBA32, RGBA16 or I8 image decoded and its stream encoded back to its format gives the image (I8 with the
exact intensity formula of R133). -/
def Obligations.ColourRoundTrips : Prop :=
  ∀ p psz s t u,
    (DecodedExactly (.decRGBA32 p psz) .rgba32 s t → HoldsStream u t (npix s) → OutputFits u s.srcLen.toNat →
      Reproduces .encRGBA32RGBA8 u s) ∧
    (DecodedExactly (.decRGBA16 p psz) .rgba16 s t → HoldsStream u t (npix s) → OutputFits u s.srcLen.toNat →
      Reproduces .encRGBA16RGBA8 u s) ∧
    (DecodedExactly (.decI8 p psz) .i8 s t → HoldsStream u t (npix s) → OutputFits u s.srcLen.toNat →
      u.config.lumaRule = .exactIntegers →
      Reproduces .encI8RGBA8 u s)

/-- R222: the grey channel of a decoded I8 or I4 image, and the grey and alpha pairs of a decoded IA image, encode back
to the image (an even pixel count for the 4-bit formats, in a layout that is stated, as it is with `PACK_LINEAR`). -/
def Obligations.GrayRoundTrips : Prop :=
  ∀ p psz s t u,
    (DecodedExactly (.decI8 p psz) .i8 s t → HoldsGray u t (npix s) → OutputFits u s.srcLen.toNat →
      Reproduces .encI8G8 u s) ∧
    (DecodedExactly (.decI4 p psz) .i4 s t → npix s % 2 = 0 → LayoutStated s → HoldsGray u t (npix s) → OutputFits u s.srcLen.toNat →
      Reproduces .encI4G8 u s) ∧
    (DecodedExactly (.decIA16 p psz) .ia16 s t → HoldsGrayAlpha u t (npix s) → OutputFits u s.srcLen.toNat →
      Reproduces .encIA16GA8 u s) ∧
    (DecodedExactly (.decIA8 p psz) .ia8 s t → HoldsGrayAlpha u t (npix s) → OutputFits u s.srcLen.toNat →
      Reproduces .encIA8GA8 u s) ∧
    (DecodedExactly (.decIA4 p psz) .ia4 s t → npix s % 2 = 0 → LayoutStated s → HoldsGrayAlpha u t (npix s) →
      u.config.ia4HighFirst = s.config.ia4HighFirst → OutputFits u s.srcLen.toNat → Reproduces .encIA4GA8 u s)

/-- R222, R208, C4: the stream of a decoded I4 image encodes back to the image exactly where the two nibbles of every
byte are equal when the double read is preserved, and always when it is not (with the exact intensity formula of R133 and
in a layout that is stated). -/
def Obligations.I4StreamRoundTrip : Prop :=
  ∀ p psz s t u, DecodedExactly (.decI4 p psz) .i4 s t → npix s % 2 = 0 → LayoutStated s → HoldsStream u t (npix s) →
    u.config.lumaRule = .exactIntegers → OutputFits u s.srcLen.toNat →
    (u.config.i4RgbaDoubleRead = false → Reproduces .encI4RGBA8 u s) ∧
    (u.config.i4RgbaDoubleRead = true →
      (Reproduces .encI4RGBA8 u s ↔ ∀ k, k < s.srcLen.toNat → srcNumber s k / 16 = srcNumber s k % 16))

/-- R222, R251: the one-byte-per-pixel indices of a CI4 image, and the packed bytes of a CI4 or CI8 image, encode back to
the image. -/
def Obligations.IndexRoundTrips : Prop :=
  ∀ s u : State,
    (npix s % 2 = 0 → s.srcLen.toNat = needBytes .ci4 (npix s) → u.srcLen.toNat = npix s →
      (∀ q, q < npix s → srcNumber u q = nibbleNumber s q) → OutputFits u s.srcLen.toNat →
      Reproduces .encCI4IDX8 u s) ∧
    (u.srcLen = s.srcLen → (∀ k, k < s.srcLen.toNat → u.byteAt .src k = s.byteAt .src k) →
      OutputFits u s.srcLen.toNat → Reproduces .encCI4IDX4 u s ∧ Reproduces .encCI8IDX8 u s)
end

