-- ==== Sys2Proof/Laws/State.lean ====
section
/-! SUPPORT. One lemma per field per update of State: later proofs unfold no record update. -/

namespace Sys2Proof.Machine

@[simp] theorem raiseError_cmd (e : OpError) (s : State) :
    (raiseError e s).cmd = s.cmd := rfl
@[simp] theorem raiseError_width (e : OpError) (s : State) :
    (raiseError e s).width = s.width := rfl
@[simp] theorem raiseError_height (e : OpError) (s : State) :
    (raiseError e s).height = s.height := rfl
@[simp] theorem raiseError_srcLen (e : OpError) (s : State) :
    (raiseError e s).srcLen = s.srcLen := rfl
@[simp] theorem raiseError_palLen (e : OpError) (s : State) :
    (raiseError e s).palLen = s.palLen := rfl
@[simp] theorem raiseError_arg (e : OpError) (s : State) :
    (raiseError e s).arg = s.arg := rfl
@[simp] theorem raiseError_res (e : OpError) (s : State) :
    (raiseError e s).res = s.res := rfl
@[simp] theorem raiseError_status (e : OpError) (s : State) :
    (raiseError e s).status = errStatus e := rfl
@[simp] theorem raiseError_errInfo (e : OpError) (s : State) :
    (raiseError e s).errInfo = e.info := rfl
@[simp] theorem raiseError_dstLen (e : OpError) (s : State) :
    (raiseError e s).dstLen = 0 := rfl
@[simp] theorem raiseError_src (e : OpError) (s : State) :
    (raiseError e s).src = s.src := rfl
@[simp] theorem raiseError_pal (e : OpError) (s : State) :
    (raiseError e s).pal = s.pal := rfl
@[simp] theorem raiseError_dst (e : OpError) (s : State) :
    (raiseError e s).dst = Memory.unwritten s.freeIdx := rfl
@[simp] theorem raiseError_config (e : OpError) (s : State) :
    (raiseError e s).config = s.config := rfl
@[simp] theorem raiseError_freeIdx (e : OpError) (s : State) :
    (raiseError e s).freeIdx = s.freeIdx + 1 := rfl
@[simp] theorem raiseError_host (e : OpError) (s : State) :
    (raiseError e s).host = s.host := rfl
@[simp] theorem raiseError_replies (e : OpError) (s : State) :
    (raiseError e s).replies = s.replies := rfl

@[simp] theorem beginOperation_cmd (c : Word) (s : State) :
    (beginOperation c s).cmd = c := rfl
@[simp] theorem beginOperation_width (c : Word) (s : State) :
    (beginOperation c s).width = s.width := rfl
@[simp] theorem beginOperation_height (c : Word) (s : State) :
    (beginOperation c s).height = s.height := rfl
@[simp] theorem beginOperation_srcLen (c : Word) (s : State) :
    (beginOperation c s).srcLen = s.srcLen := rfl
@[simp] theorem beginOperation_palLen (c : Word) (s : State) :
    (beginOperation c s).palLen = s.palLen := rfl
@[simp] theorem beginOperation_arg (c : Word) (s : State) :
    (beginOperation c s).arg = s.arg := rfl
@[simp] theorem beginOperation_res (c : Word) (s : State) :
    (beginOperation c s).res = s.res := rfl
@[simp] theorem beginOperation_status (c : Word) (s : State) :
    (beginOperation c s).status = 0 := rfl
@[simp] theorem beginOperation_errInfo (c : Word) (s : State) :
    (beginOperation c s).errInfo = 0 := rfl
@[simp] theorem beginOperation_dstLen (c : Word) (s : State) :
    (beginOperation c s).dstLen = 0 := rfl
@[simp] theorem beginOperation_src (c : Word) (s : State) :
    (beginOperation c s).src = s.src := rfl
@[simp] theorem beginOperation_pal (c : Word) (s : State) :
    (beginOperation c s).pal = s.pal := rfl
@[simp] theorem beginOperation_dst (c : Word) (s : State) :
    (beginOperation c s).dst = s.dst := rfl
@[simp] theorem beginOperation_config (c : Word) (s : State) :
    (beginOperation c s).config = s.config := rfl
@[simp] theorem beginOperation_freeIdx (c : Word) (s : State) :
    (beginOperation c s).freeIdx = s.freeIdx := rfl
@[simp] theorem beginOperation_host (c : Word) (s : State) :
    (beginOperation c s).host = s.host := rfl
@[simp] theorem beginOperation_replies (c : Word) (s : State) :
    (beginOperation c s).replies = s.replies := rfl

@[simp] theorem completeOutput_cmd (bs : List Byte) (s : State) :
    (completeOutput bs s).cmd = s.cmd := rfl
@[simp] theorem completeOutput_width (bs : List Byte) (s : State) :
    (completeOutput bs s).width = s.width := rfl
@[simp] theorem completeOutput_height (bs : List Byte) (s : State) :
    (completeOutput bs s).height = s.height := rfl
@[simp] theorem completeOutput_srcLen (bs : List Byte) (s : State) :
    (completeOutput bs s).srcLen = s.srcLen := rfl
@[simp] theorem completeOutput_palLen (bs : List Byte) (s : State) :
    (completeOutput bs s).palLen = s.palLen := rfl
@[simp] theorem completeOutput_arg (bs : List Byte) (s : State) :
    (completeOutput bs s).arg = s.arg := rfl
@[simp] theorem completeOutput_res (bs : List Byte) (s : State) :
    (completeOutput bs s).res = s.res := rfl
@[simp] theorem completeOutput_status (bs : List Byte) (s : State) :
    (completeOutput bs s).status = doneStatus := rfl
@[simp] theorem completeOutput_errInfo (bs : List Byte) (s : State) :
    (completeOutput bs s).errInfo = 0 := rfl
@[simp] theorem completeOutput_dstLen (bs : List Byte) (s : State) :
    (completeOutput bs s).dstLen = lengthWord bs.length := rfl
@[simp] theorem completeOutput_src (bs : List Byte) (s : State) :
    (completeOutput bs s).src = s.src := rfl
@[simp] theorem completeOutput_pal (bs : List Byte) (s : State) :
    (completeOutput bs s).pal = s.pal := rfl
@[simp] theorem completeOutput_dst (bs : List Byte) (s : State) :
    (completeOutput bs s).dst = s.dst.store 0 bs := rfl
@[simp] theorem completeOutput_config (bs : List Byte) (s : State) :
    (completeOutput bs s).config = s.config := rfl
@[simp] theorem completeOutput_freeIdx (bs : List Byte) (s : State) :
    (completeOutput bs s).freeIdx = s.freeIdx := rfl
@[simp] theorem completeOutput_host (bs : List Byte) (s : State) :
    (completeOutput bs s).host = s.host := rfl
@[simp] theorem completeOutput_replies (bs : List Byte) (s : State) :
    (completeOutput bs s).replies = s.replies := rfl

@[simp] theorem completeResult_cmd (v : Word) (s : State) :
    (completeResult v s).cmd = s.cmd := rfl
@[simp] theorem completeResult_width (v : Word) (s : State) :
    (completeResult v s).width = s.width := rfl
@[simp] theorem completeResult_height (v : Word) (s : State) :
    (completeResult v s).height = s.height := rfl
@[simp] theorem completeResult_srcLen (v : Word) (s : State) :
    (completeResult v s).srcLen = s.srcLen := rfl
@[simp] theorem completeResult_palLen (v : Word) (s : State) :
    (completeResult v s).palLen = s.palLen := rfl
@[simp] theorem completeResult_arg (v : Word) (s : State) :
    (completeResult v s).arg = s.arg := rfl
@[simp] theorem completeResult_res (v : Word) (s : State) :
    (completeResult v s).res = v := rfl
@[simp] theorem completeResult_status (v : Word) (s : State) :
    (completeResult v s).status = doneStatus := rfl
@[simp] theorem completeResult_errInfo (v : Word) (s : State) :
    (completeResult v s).errInfo = 0 := rfl
@[simp] theorem completeResult_dstLen (v : Word) (s : State) :
    (completeResult v s).dstLen = 0 := rfl
@[simp] theorem completeResult_src (v : Word) (s : State) :
    (completeResult v s).src = s.src := rfl
@[simp] theorem completeResult_pal (v : Word) (s : State) :
    (completeResult v s).pal = s.pal := rfl
@[simp] theorem completeResult_dst (v : Word) (s : State) :
    (completeResult v s).dst = s.dst := rfl
@[simp] theorem completeResult_config (v : Word) (s : State) :
    (completeResult v s).config = s.config := rfl
@[simp] theorem completeResult_freeIdx (v : Word) (s : State) :
    (completeResult v s).freeIdx = s.freeIdx := rfl
@[simp] theorem completeResult_host (v : Word) (s : State) :
    (completeResult v s).host = s.host := rfl
@[simp] theorem completeResult_replies (v : Word) (s : State) :
    (completeResult v s).replies = s.replies := rfl

@[simp] theorem resetBlock_cmd (s : State) :
    (resetBlock s).cmd = 0 := rfl
@[simp] theorem resetBlock_width (s : State) :
    (resetBlock s).width = 0 := rfl
@[simp] theorem resetBlock_height (s : State) :
    (resetBlock s).height = 0 := rfl
@[simp] theorem resetBlock_srcLen (s : State) :
    (resetBlock s).srcLen = 0 := rfl
@[simp] theorem resetBlock_palLen (s : State) :
    (resetBlock s).palLen = 0 := rfl
@[simp] theorem resetBlock_arg (s : State) :
    (resetBlock s).arg = 0 := rfl
@[simp] theorem resetBlock_res (s : State) :
    (resetBlock s).res = 0 := rfl
@[simp] theorem resetBlock_status (s : State) :
    (resetBlock s).status = 0 := rfl
@[simp] theorem resetBlock_errInfo (s : State) :
    (resetBlock s).errInfo = 0 := rfl
@[simp] theorem resetBlock_dstLen (s : State) :
    (resetBlock s).dstLen = 0 := rfl
@[simp] theorem resetBlock_src (s : State) :
    (resetBlock s).src = Memory.unwritten s.freeIdx := rfl
@[simp] theorem resetBlock_pal (s : State) :
    (resetBlock s).pal = Memory.unwritten s.freeIdx := rfl
@[simp] theorem resetBlock_dst (s : State) :
    (resetBlock s).dst = Memory.unwritten s.freeIdx := rfl
@[simp] theorem resetBlock_config (s : State) :
    (resetBlock s).config = s.config := rfl
@[simp] theorem resetBlock_freeIdx (s : State) :
    (resetBlock s).freeIdx = s.freeIdx + 1 := rfl
@[simp] theorem resetBlock_host (s : State) :
    (resetBlock s).host = s.host := rfl
@[simp] theorem resetBlock_replies (s : State) :
    (resetBlock s).replies = s.replies := rfl

@[simp] theorem memory_src (s : State) : s.memory .src = s.src := rfl
@[simp] theorem memory_pal (s : State) : s.memory .pal = s.pal := rfl
@[simp] theorem memory_dst (s : State) : s.memory .dst = s.dst := rfl

@[simp] theorem srcView_len (s : State) : s.srcView.len = s.srcLen.toNat := rfl
@[simp] theorem srcView_byte (s : State) (k : Nat) : s.srcView.byte k = s.byteAt .src k := rfl
@[simp] theorem palView_len (s : State) : s.palView.len = s.palLen.toNat := rfl
@[simp] theorem palView_byte (s : State) (k : Nat) : s.palView.byte k = s.byteAt .pal k := rfl

end Sys2Proof.Machine
end

