-- ==== Sys2Proof/Laws/Memory.lean ====
section
/-! SUPPORT. What a store changes and what it leaves alone, and that every buffer operation keeps the canonical form. -/

namespace Sys2Proof.Machine

theorem cellAt_append (xs ys : List Host.Cell) (a : Nat) :
    cellAt (xs ++ ys) a = (cellAt xs a).or (cellAt ys a) := by
  induction xs with
  | nil => simp [cellAt]
  | cons c cs ih =>
    by_cases h : c.1 = a
    · simp [cellAt, h]
    · simp [cellAt, h, ih]

/-- A filter on offsets hides exactly the offsets it rejects. -/
theorem cellAt_filter (P : Nat → Bool) (xs : List Host.Cell) (a : Nat) :
    cellAt (xs.filter (fun c => P c.1)) a = if P a then cellAt xs a else none := by
  induction xs with
  | nil => simp [cellAt]
  | cons c cs ih =>
    by_cases h : c.1 = a
    · subst h
      by_cases hp : P c.1 <;> simp [cellAt, hp, ih]
    · by_cases hp : P c.1 <;> simp [cellAt, hp, h, ih]

theorem cellAt_cellsFrom (off : Nat) (bs : List Byte) (a : Nat) :
    cellAt (cellsFrom off bs) a = if off ≤ a then bs[a - off]? else none := by
  induction bs generalizing off with
  | nil => simp [cellsFrom, cellAt]
  | cons b bs ih =>
    by_cases h : off = a
    · subst h
      simp [cellsFrom, cellAt]
    · by_cases hlt : off < a
      · have hd : a - off = (a - (off + 1)) + 1 := by omega
        simp [cellsFrom, cellAt, h, ih, hd, Nat.le_of_lt hlt, Nat.succ_le_of_lt hlt]
      · have h1 : ¬ off ≤ a := by omega
        have h2 : ¬ off + 1 ≤ a := by omega
        simp [cellsFrom, cellAt, h, ih, h1, h2]

/-- A store records its bytes at their offsets and changes no other offset. -/
theorem recorded_store (m : Memory) (off : Nat) (bs : List Byte) (a : Nat) :
    (m.store off bs).recorded a =
      if off ≤ a ∧ a < off + bs.length then bs[a - off]? else m.recorded a := by
  have hlow := cellAt_filter (fun x => decide (x < off)) m.cells a
  have hhigh := cellAt_filter (fun x => decide (off + bs.length ≤ x)) m.cells a
  simp only [Memory.recorded, Memory.store, cellAt_append, cellAt_cellsFrom, hlow, hhigh]
  by_cases h1 : a < off
  · have h2 : ¬ off ≤ a := by omega
    have h3 : ¬ off + bs.length ≤ a := by omega
    simp [h1, h2, h3]
  · by_cases h3 : off + bs.length ≤ a
    · have hn : bs[a - off]? = none := by simp; omega
      have h4 : ¬ a < off + bs.length := by omega
      simp [h1, h3, h4, hn]
    · have h2 : off ≤ a := by omega
      have h4 : a < off + bs.length := by omega
      simp [h1, h2, h3, h4]

@[simp] theorem store_epoch (m : Memory) (off : Nat) (bs : List Byte) : (m.store off bs).epoch = m.epoch := rfl

@[simp] theorem recorded_unwritten (e a : Nat) : (Memory.unwritten e).recorded a = none := rfl

@[simp] theorem epoch_unwritten (e : Nat) : (Memory.unwritten e).epoch = e := rfl

/-- Reading a stored byte gives it. -/
theorem byteAt_store_inside (sp : Space) (m : Memory) (off : Nat) (bs : List Byte) (k : Nat) (h : k < bs.length) :
    (m.store off bs).byteAt sp (off + k) = bs[k] := by
  have h1 : off ≤ off + k ∧ off + k < off + bs.length := by omega
  simp [Memory.byteAt, recorded_store, h1, h]

/-- Reading any other byte gives what it gave before. -/
theorem byteAt_store_outside (sp : Space) (m : Memory) (off : Nat) (bs : List Byte) (a : Nat)
    (h : a < off ∨ off + bs.length ≤ a) : (m.store off bs).byteAt sp a = m.byteAt sp a := by
  have h1 : ¬ (off ≤ a ∧ a < off + bs.length) := by omega
  simp [Memory.byteAt, recorded_store, h1]

theorem mem_cellsFrom {off : Nat} {bs : List Byte} {c : Host.Cell} (h : c ∈ cellsFrom off bs) :
    off ≤ c.1 ∧ c.1 < off + bs.length := by
  induction bs generalizing off with
  | nil => simp [cellsFrom] at h
  | cons b bs ih =>
    simp only [cellsFrom, List.mem_cons] at h
    rcases h with rfl | h
    · simp
    · have := ih h
      simp only [List.length_cons]
      omega

theorem cellsFrom_rising (off : Nat) (bs : List Byte) :
    (cellsFrom off bs).Pairwise (fun x y => x.1 < y.1) := by
  induction bs generalizing off with
  | nil => simp [cellsFrom]
  | cons b bs ih =>
    simp only [cellsFrom, List.pairwise_cons]
    exact ⟨fun c hc => by have := mem_cellsFrom hc; omega, ih _⟩

/-- A store keeps the canonical form. -/
theorem store_wf {m : Memory} (h : m.wf) (off : Nat) (bs : List Byte) : (m.store off bs).wf := by
  simp only [Memory.wf, Memory.store, List.append_assoc, List.pairwise_append]
  refine ⟨h.filter _, ⟨cellsFrom_rising _ _, h.filter _, ?_⟩, ?_⟩
  · intro x hx y hy
    have hx' := mem_cellsFrom hx
    have hy' : off + bs.length ≤ y.1 := by simpa using (List.mem_filter.mp hy).2
    omega
  · intro x hx y hy
    have hx' : x.1 < off := by simpa using (List.mem_filter.mp hx).2
    rcases List.mem_append.mp hy with hy | hy
    · have := mem_cellsFrom hy
      omega
    · have hy' : off + bs.length ≤ y.1 := by simpa using (List.mem_filter.mp hy).2
      omega

theorem unwritten_wf (e : Nat) : (Memory.unwritten e).wf := List.Pairwise.nil

/-- A store adds no cell outside the stored bytes. -/
theorem mem_store {m : Memory} {off : Nat} {bs : List Byte} {c : Host.Cell} (h : c ∈ (m.store off bs).cells) :
    c ∈ m.cells ∨ (off ≤ c.1 ∧ c.1 < off + bs.length) := by
  simp only [Memory.store, List.mem_append, List.mem_filter] at h
  rcases h with (h | h) | h
  · exact .inl h.1
  · exact .inr (mem_cellsFrom h)
  · exact .inl h.1

end Sys2Proof.Machine
end

