-- ==== Sys2Proof/Laws/Ops.lean ====
section
/-! SUPPORT. What the shared operations can do, said once: the reads of a view, the output loop, and how an operation
ends. -/

namespace Sys2Proof.Machine

/-! ## Reads -/

theorem window_ok {v : View} {off n : Nat} (h : off + n ≤ v.len) :
    v.window off n = .ok (fun t => v.byte (off + t)) := by simp [View.window, h]

theorem window_short {v : View} {off n : Nat} (h : v.len < off + n) :
    v.window off n = .error .truncatedInput := by
  have h' : ¬ off + n ≤ v.len := by omega
  simp [View.window, h']

theorem read8_ok {v : View} {off : Nat} (h : off < v.len) : v.read8 off = .ok (v.byte off) := by
  simp [View.read8, window_ok (n := 1) h, Except.map]

theorem read8_short {v : View} {off : Nat} (h : v.len ≤ off) : v.read8 off = .error .truncatedInput := by
  simp [View.read8, window_short (n := 1) (Nat.lt_succ_of_le h), Except.map]

theorem read16_ok {v : View} {off : Nat} (h : off + 2 ≤ v.len) :
    v.read16 off = .ok (halfOfBytes (v.byte off) (v.byte (off + 1))) := by
  simp [View.read16, window_ok h, Except.map]

theorem read16_short {v : View} {off : Nat} (h : v.len < off + 2) : v.read16 off = .error .truncatedInput := by
  simp [View.read16, window_short h, Except.map]

theorem read32_ok {v : View} {off : Nat} (h : off + 4 ≤ v.len) :
    v.read32 off = .ok (v.byte off ++ v.byte (off + 1) ++ v.byte (off + 2) ++ v.byte (off + 3)) := by
  simp [View.read32, window_ok h, Except.map]

theorem read32_short {v : View} {off : Nat} (h : v.len < off + 4) : v.read32 off = .error .truncatedInput := by
  simp [View.read32, window_short h, Except.map]

/-- Where every reading of the source agrees, pixel `p` lies at half byte `p` (R59, U10). -/
theorem nibblePosition_stated {cfg : Config} {w p : Nat} (h : cfg.packLinear = true ∨ w % 2 = 0 ∨ p < w) :
    nibblePosition cfg w p = p := by
  rcases h with h | h | h <;> simp [nibblePosition, h]

theorem nibble_ok {v : View} {highFirst : Bool} {p : Nat} (h : p / 2 < v.len) :
    v.nibble highFirst p = .ok (pixelNibble highFirst p (v.byte (p / 2))) := by
  simp [View.nibble, read8_ok h, Except.map]

theorem nibble_short {v : View} {highFirst : Bool} {p : Nat} (h : v.len ≤ p / 2) :
    v.nibble highFirst p = .error .truncatedInput := by
  simp [View.nibble, read8_short h, Except.map]

/-- The mixed-width view of R57: the register layout of a quadruple read as one big-endian word. -/
theorem quadOfWord_append (a b c d : Byte) : quadOfWord (a ++ b ++ c ++ d) = Rgba.mk a b c d := by
  simp only [quadOfWord, Rgba.mk.injEq]
  refine ⟨?_, ?_, ?_, ?_⟩ <;>
  · apply BitVec.eq_of_getLsbD_eq
    intro i hi
    rw [BitVec.getLsbD_extractLsb', BitVec.getLsbD_append (x := a ++ b ++ c) (y := d),
      BitVec.getLsbD_append (x := a ++ b) (y := c), BitVec.getLsbD_append (x := a) (y := b)]
    interval_cases i <;> simp

theorem quadOfWord_quadToWord (q : Rgba) : quadOfWord (quadToWord q) = q := quadOfWord_append ..

/-! ## The output loop -/

theorem fits_mono {cap : Option Nat} {m n : Nat} (hmn : m ≤ n) (h : fits cap n = true) : fits cap m = true := by
  cases cap with
  | none => rfl
  | some c => simp only [fits, decide_eq_true_eq] at *; omega

/-- Where every item is a chunk and the whole output fits, the loop emits the chunks in order. -/
theorem emitLoop_ok {cap : Option Nat} {item : Nat → Except OpError (List Byte)} {f : Nat → List Byte}
    {n i dp : Nat} (hitem : ∀ k, i ≤ k → k < i + n → item k = .ok (f k))
    (hfits : fits cap (dp + ((List.range' i n).flatMap f).length) = true) :
    emitLoop cap item n i dp = .ok ((List.range' i n).flatMap f) := by
  induction n generalizing i dp with
  | zero => rfl
  | succ n ih =>
    have hcons : (List.range' i (n + 1)).flatMap f = f i ++ (List.range' (i + 1) n).flatMap f := by
      simp [List.range'_succ]
    rw [hcons, List.length_append] at hfits
    have hhead : fits cap (dp + (f i).length) = true := fits_mono (by omega) hfits
    have htail := ih (i := i + 1) (dp := dp + (f i).length)
      (fun k h1 h2 => hitem k (by omega) (by omega)) (by rw [Nat.add_assoc]; exact hfits)
    simp only [emitLoop, hitem i (Nat.le_refl i) (by omega), hhead, htail, if_true, hcons]

/-- An output that the loop delivers fits. -/
theorem emitLoop_fits {cap : Option Nat} {item : Nat → Except OpError (List Byte)} {n i dp : Nat} {bs : List Byte}
    (h : emitLoop cap item n i dp = .ok bs) (hdp : fits cap dp = true) : fits cap (dp + bs.length) = true := by
  induction n generalizing i dp bs with
  | zero => cases h; simpa using hdp
  | succ n ih =>
    simp only [emitLoop] at h
    split at h
    · cases h
    · rename_i chunk _
      split at h
      · rename_i hc
        split at h
        · cases h
        · rename_i rest hrest
          cases h
          simpa [Nat.add_assoc] using ih hrest hc
      · cases h

/-- An error of the loop is the error of an item or `Io`. -/
theorem emitLoop_error {cap : Option Nat} {item : Nat → Except OpError (List Byte)} {n i dp : Nat} {e : OpError}
    (h : emitLoop cap item n i dp = .error e) : (∃ k, i ≤ k ∧ k < i + n ∧ item k = .error e) ∨ e = .io := by
  induction n generalizing i dp with
  | zero => cases h
  | succ n ih =>
    simp only [emitLoop] at h
    split at h
    · rename_i e' he
      cases h
      exact .inl ⟨i, Nat.le_refl i, by omega, he⟩
    · split at h
      · split at h
        · rename_i e' he
          cases h
          rcases ih he with ⟨k, h1, h2, h3⟩ | h'
          · exact .inl ⟨k, by omega, by omega, h3⟩
          · exact .inr h'
        · cases h
      · cases h
        exact .inr rfl

/-- The first item that is an error ends the loop with it, where everything before it fits. -/
theorem emitLoop_firstError {cap : Option Nat} {item : Nat → Except OpError (List Byte)} {f : Nat → List Byte}
    {n i dp j : Nat} {e : OpError} (hj : j < n) (hitem : ∀ k, i ≤ k → k < i + j → item k = .ok (f k))
    (hfits : fits cap (dp + ((List.range' i j).flatMap f).length) = true) (he : item (i + j) = .error e) :
    emitLoop cap item n i dp = .error e := by
  induction j generalizing n i dp with
  | zero =>
    obtain ⟨n, rfl⟩ : ∃ m, n = m + 1 := ⟨n - 1, by omega⟩
    simp only [Nat.add_zero] at he
    simp [emitLoop, he]
  | succ j ih =>
    obtain ⟨n, rfl⟩ : ∃ m, n = m + 1 := ⟨n - 1, by omega⟩
    have hcons : (List.range' i (j + 1)).flatMap f = f i ++ (List.range' (i + 1) j).flatMap f := by
      simp [List.range'_succ]
    rw [hcons, List.length_append] at hfits
    have hhead : fits cap (dp + (f i).length) = true := fits_mono (by omega) hfits
    have htail := ih (n := n) (i := i + 1) (dp := dp + (f i).length) (by omega)
      (fun k h1 h2 => hitem k (by omega) (by omega)) (by rw [Nat.add_assoc]; exact hfits)
      (by rw [← he]; congr 1; omega)
    simp only [emitLoop, hitem i (Nat.le_refl i) (by omega), hhead, htail, if_true]

/-- Where every item is a chunk and the whole output does not fit, the loop ends in `Io`. -/
theorem emitLoop_io {cap : Option Nat} {item : Nat → Except OpError (List Byte)} {f : Nat → List Byte}
    {n i dp : Nat} (hitem : ∀ k, i ≤ k → k < i + n → item k = .ok (f k)) (hdp : fits cap dp = true)
    (hfits : fits cap (dp + ((List.range' i n).flatMap f).length) = false) :
    emitLoop cap item n i dp = .error .io := by
  induction n generalizing i dp with
  | zero => simp [hdp] at hfits
  | succ n ih =>
    have hcons : (List.range' i (n + 1)).flatMap f = f i ++ (List.range' (i + 1) n).flatMap f := by
      simp [List.range'_succ]
    rw [hcons, List.length_append, ← Nat.add_assoc] at hfits
    by_cases hhead : fits cap (dp + (f i).length) = true
    · have htail := ih (i := i + 1) (fun k h1 h2 => hitem k (by omega) (by omega)) hhead hfits
      simp only [emitLoop, hitem i (Nat.le_refl i) (by omega), hhead, htail, if_true]
    · simp [emitLoop, hitem i (Nat.le_refl i) (by omega), hhead]

/-- Byte `k` of chunks of one length. -/
theorem flatMap_chunks_getElem? {f : Nat → List Byte} {m : Nat} (hm : 0 < m) (hf : ∀ j, (f j).length = m)
    (i n k : Nat) (hk : k < n * m) : ((List.range' i n).flatMap f)[k]? = (f (i + k / m))[k % m]? := by
  induction n generalizing i k with
  | zero => simp at hk
  | succ n ih =>
    have hcons : (List.range' i (n + 1)).flatMap f = f i ++ (List.range' (i + 1) n).flatMap f := by
      simp [List.range'_succ]
    rw [hcons, List.getElem?_append, hf i]
    by_cases h : k < m
    · simp [h, Nat.div_eq_of_lt h, Nat.mod_eq_of_lt h]
    · have hge : m ≤ k := by omega
      have hk' : k - m < n * m := by rw [Nat.add_mul, Nat.one_mul] at hk; omega
      have hdiv : k / m = (k - m) / m + 1 := by
        rw [Nat.div_eq_sub_div hm hge]
      have hmod : k % m = (k - m) % m := by rw [Nat.mod_eq_sub_mod hge]
      rw [if_neg h, ih (i + 1) (k - m) hk', hdiv, hmod]
      congr 2
      omega

theorem flatMap_chunks_length {f : Nat → List Byte} {m : Nat} (hf : ∀ j, (f j).length = m) (i n : Nat) :
    ((List.range' i n).flatMap f).length = n * m := by
  induction n generalizing i with
  | zero => simp
  | succ n ih =>
    have hcons : (List.range' i (n + 1)).flatMap f = f i ++ (List.range' (i + 1) n).flatMap f := by
      simp [List.range'_succ]
    rw [hcons, List.length_append, hf i, ih, Nat.add_mul, Nat.one_mul, Nat.add_comm]

/-! ## The end of an operation -/

theorem finishOutput_next {r : Except OpError (List Byte)} {s t : State} (h : finishOutput r s = .next t) :
    (∃ bs, r = .ok bs ∧ t = completeOutput bs s) ∨ (∃ e, r = .error e ∧ t = raiseError e s) := by
  cases r with
  | ok bs => cases h; exact .inl ⟨bs, rfl, rfl⟩
  | error e => cases h; exact .inr ⟨e, rfl, rfl⟩

theorem finishResult_next {r : Except OpError Word} {s t : State} (h : finishResult r s = .next t) :
    (∃ v, r = .ok v ∧ t = completeResult v s) ∨ (∃ e, r = .error e ∧ t = raiseError e s) := by
  cases r with
  | ok v => cases h; exact .inl ⟨v, rfl, rfl⟩
  | error e => cases h; exact .inr ⟨e, rfl, rfl⟩

/-- `DST_LEN` counts recorded bytes of the output, also where the register holds a free value (log 7). -/
theorem lengthWord_le (n : Nat) : (lengthWord n).toNat ≤ n := by
  unfold lengthWord
  split
  · rename_i h
    rw [BitVec.toNat_ofNat]
    exact Nat.mod_le _ _
  · have := (Config.unstatedLength n).isLt
    omega

theorem lengthWord_eq {n : Nat} (h : n < 2 ^ 32) : (lengthWord n).toNat = n := by
  rw [lengthWord, if_pos h, BitVec.toNat_ofNat, Nat.mod_eq_of_lt h]

end Sys2Proof.Machine
end

