-- ==== Sys2Proof/Laws/Exec.lean ====
section
/-! SUPPORT. What an operation and a step can do, said once: every operation that answers a next state completes an
output, returns a result or raises an error of its own. -/

namespace Sys2Proof.Machine

/-- The errors found in the data: every one but the two a command word alone decides. -/
def OpError.ofData : OpError → Bool
  | .truncatedInput => true
  | .missingPalette => true
  | .invalidSourceShape _ _ => false
  | .paletteIndexOutOfRange => true
  | .io => true
  | .illegalCommand => false

/-- An error the operation can raise: never `IllegalCommand`, and `ERRINFO` receives bits 23:16 of its word for an
`InvalidSourceShape` and 0 otherwise (R263, R270). -/
def ErrorOf (i : Instr) (e : OpError) : Prop :=
  e ≠ .illegalCommand ∧ e.info = if e.code = 3 then (encode i >>> 16) &&& 0xFF#32 else 0#32

/-- The ways an operation on `s` ends (R14, R29, R270). -/
def Ending (i : Instr) (s t : State) : Prop :=
  (∃ bs, fits s.config.dstCap bs.length = true ∧ returnsResult i = false ∧ t = completeOutput bs s) ∨
    (∃ v, returnsResult i = true ∧ t = completeResult v s) ∨ (∃ e, ErrorOf i e ∧ t = raiseError e s)

theorem errorOf_ofData {i : Instr} {e : OpError} (h : e.ofData = true) : ErrorOf i e := by
  cases e <;> simp_all [OpError.ofData, ErrorOf, OpError.info, OpError.code]

/-- The word of a catch-all carries its shape in bits 23:16 (R221, R263). -/
theorem shapeWord_encWord (fmt : ImageFormat) (ctype : ColorType) (depth : BitVec 5) :
    shapeWord ctype depth = (encWord fmt ctype depth >>> 16) &&& 0xFF#32 := by
  cases fmt <;> cases ctype <;> revert depth <;> decide

/-! Every error of a read, a lookup or an output loop over them is found in the data. -/

theorem window_ofData {v : View} {off n : Nat} {e : OpError} (h : v.window off n = .error e) : e.ofData = true := by
  unfold View.window at h
  split at h <;> cases h
  rfl

theorem map_error {α β : Type} {x : Except OpError α} {f : α → β} {e : OpError} (h : x.map f = .error e) :
    x = .error e := by
  cases x <;> simp_all [Except.map]

theorem read8_ofData {v : View} {off : Nat} {e : OpError} (h : v.read8 off = .error e) : e.ofData = true :=
  window_ofData (map_error h)

theorem nibble_ofData {v : View} {hf : Bool} {p : Nat} {e : OpError} (h : v.nibble hf p = .error e) :
    e.ofData = true :=
  read8_ofData (map_error h)

theorem tlutLookup_ofData {tbl : List Rgba} {index : Byte} {e : OpError} (h : tlutLookup tbl index = .error e) :
    e.ofData = true := by
  unfold tlutLookup at h
  split at h <;> cases h
  rfl

theorem tlutDecode_ofData {n : Nat} {v : View} {e : OpError} (h : tlutDecode n v = .error e) : e.ofData = true := by
  unfold tlutDecode at h
  split at h <;> cases h
  rfl

theorem pixelCI8_ofData {tbl : List Rgba} {v : View} {p : Nat} {e : OpError} (h : pixelCI8 tbl v p = .error e) :
    e.ofData = true := by
  unfold pixelCI8 at h
  split at h
  · rename_i e' he
    cases h
    exact read8_ofData he
  · exact tlutLookup_ofData h

theorem pixelCI4_ofData {tbl : List Rgba} {v : View} {p : Nat} {e : OpError} (h : pixelCI4 tbl v p = .error e) :
    e.ofData = true := by
  unfold pixelCI4 at h
  split at h
  · rename_i e' he
    cases h
    exact nibble_ofData he
  · exact tlutLookup_ofData h

theorem fits_zero (cap : Option Nat) : fits cap 0 = true := by
  cases cap <;> simp [fits]

theorem emitAll_fits {cap : Option Nat} {n : Nat} {item : Nat → Except OpError (List Byte)} {bs : List Byte}
    (h : emitAll cap n item = .ok bs) : fits cap bs.length = true := by
  simpa using emitLoop_fits h (fits_zero cap)

theorem emitAll_ofData {cap : Option Nat} {n : Nat} {item : Nat → Except OpError (List Byte)} {e : OpError}
    (hitem : ∀ k e, item k = .error e → e.ofData = true) (h : emitAll cap n item = .error e) : e.ofData = true := by
  rcases emitLoop_error h with ⟨k, -, -, hk⟩ | rfl
  · exact hitem k e hk
  · rfl

/-! The endings of the shared frames. -/

theorem emit_ending {i : Instr} {n : Nat} {item : Nat → Except OpError (List Byte)} {s t : State}
    (hr : returnsResult i = false) (hitem : ∀ k e, item k = .error e → e.ofData = true)
    (h : finishOutput (emitAll s.config.dstCap n item) s = .next t) : Ending i s t := by
  rcases finishOutput_next h with ⟨bs, hbs, rfl⟩ | ⟨e, he, rfl⟩
  · exact .inl ⟨bs, emitAll_fits hbs, hr, rfl⟩
  · exact .inr (.inr ⟨e, errorOf_ofData (emitAll_ofData hitem he), rfl⟩)

theorem error_ending {i : Instr} {e : OpError} {s t : State} (he : ErrorOf i e)
    (h : finishOutput (.error e) s = .next t) : Ending i s t := by
  cases h
  exact .inr (.inr ⟨e, he, rfl⟩)

theorem result_ending {i : Instr} {r : Except OpError Word} {s t : State} (hr : returnsResult i = true)
    (hdata : ∀ e, r = .error e → e.ofData = true) (h : finishResult r s = .next t) : Ending i s t := by
  rcases finishResult_next h with ⟨v, -, rfl⟩ | ⟨e, he, rfl⟩
  · exact .inr (.inl ⟨v, hr, rfl⟩)
  · exact .inr (.inr ⟨e, errorOf_ofData (hdata e he), rfl⟩)

theorem decodePlain_ending {i : Instr} {pixel : View → Nat → Except OpError Rgba} {s t : State}
    (hr : returnsResult i = false) (hpixel : ∀ v k e, pixel v k = .error e → e.ofData = true)
    (h : decodePlain pixel s = .next t) : Ending i s t :=
  emit_ending hr (fun k e he => hpixel _ k e (map_error he)) h

theorem decodeIndexed_ending {i : Instr} {pixel : List Rgba → View → Nat → Except OpError Rgba} {p : Bool}
    {psz : PaletteSize} {s t : State} (hr : returnsResult i = false)
    (hpixel : ∀ tbl v k e, pixel tbl v k = .error e → e.ofData = true)
    (h : decodeIndexed pixel p psz s = .next t) : Ending i s t := by
  unfold decodeIndexed at h
  split at h
  · split at h
    · rename_i e he
      exact error_ending (errorOf_ofData (tlutDecode_ofData he)) h
    · exact emit_ending hr (fun k e he => hpixel _ _ k e (map_error he)) h
  · exact error_ending (errorOf_ofData rfl) h

theorem encodeVerbatim_ending {i : Instr} {s t : State} (hr : returnsResult i = false)
    (h : encodeVerbatim s = .next t) : Ending i s t :=
  emit_ending hr (fun _ _ he => read8_ofData (map_error he)) h

theorem encodeGroups_ending {i : Instr} {k : Nat} {out : (Nat → Byte) → List Byte} {s t : State}
    (hr : returnsResult i = false) (h : encodeGroups k out s = .next t) : Ending i s t :=
  emit_ending hr (fun _ _ he => window_ofData (map_error he)) h

theorem value_ending {i : Instr} {v : Word} {s t : State} (hr : returnsResult i = true)
    (h : finishResult (.ok v) s = .next t) : Ending i s t :=
  result_ending hr (fun e he => by cases he) h

theorem encodeRefused_ending {i : Instr} {fmt : ImageFormat} {ctype : ColorType} {depth : BitVec 5} {s t : State}
    (hi : encode i = encWord fmt ctype depth) (h : encodeRefused ctype depth s = .next t) : Ending i s t := by
  refine error_ending ⟨by simp, ?_⟩ h
  simpa [OpError.info, OpError.code, hi] using shapeWord_encWord fmt ctype depth

/-- The inversion lemma of `exec`. -/
theorem exec_ending {i : Instr} {s t : State} (h : exec i s = .next t) : Ending i s t := by
  cases i
  case tlutDecode psz =>
    simp only [exec, execTlutDecode] at h
    split at h
    · rename_i e he
      exact error_ending (errorOf_ofData (tlutDecode_ofData he)) h
    · exact emit_ending rfl (fun _ _ he => read8_ofData (map_error he)) h
  case tlutLookup psz =>
    simp only [exec, execTlutLookup] at h
    split at h
    · rename_i e he
      exact result_ending rfl (fun _ h' => by cases h'; exact tlutDecode_ofData he) h
    · exact result_ending rfl (fun _ he => tlutLookup_ofData (map_error he)) h
  case decCI4 p psz =>
    exact decodeIndexed_ending (pixel := fun tbl src k => pixelCI4 tbl src (s.position k)) rfl
      (fun _ _ _ _ => pixelCI4_ofData) h
  case decCI8 p psz => exact decodeIndexed_ending (pixel := pixelCI8) rfl (fun _ _ _ _ => pixelCI8_ofData) h
  case decI4 p psz =>
    exact decodePlain_ending (pixel := fun src p => pixelI4 src (s.position p)) rfl
      (fun _ _ _ he => nibble_ofData (map_error he)) h
  case decIA4 p psz =>
    exact decodePlain_ending (pixel := fun src p => pixelIA4 s.config.ia4HighFirst src (s.position p)) rfl
      (fun _ _ _ he => nibble_ofData (map_error he)) h
  case decI8 p psz =>
    exact decodePlain_ending (pixel := pixelI8) rfl (fun _ _ _ he => read8_ofData (map_error he)) h
  case decIA8 p psz =>
    exact decodePlain_ending (pixel := pixelIA8) rfl (fun _ _ _ he => read8_ofData (map_error he)) h
  case decIA16 p psz =>
    exact decodePlain_ending (pixel := pixelIA16) rfl (fun _ _ _ he => window_ofData (map_error he)) h
  case decRGBA16 p psz =>
    exact decodePlain_ending (pixel := pixelRGBA16) rfl (fun _ _ _ he => window_ofData (map_error (map_error he))) h
  case decRGBA32 p psz =>
    exact decodePlain_ending (pixel := pixelRGBA32) rfl (fun _ _ _ he => window_ofData (map_error (map_error he))) h
  case encRGBA32RGBA8 => exact encodeVerbatim_ending rfl h
  case encI4G4 => exact encodeVerbatim_ending rfl h
  case encI8G8 => exact encodeVerbatim_ending rfl h
  case encIA16GA8 => exact encodeVerbatim_ending rfl h
  case encCI4IDX4 => exact encodeVerbatim_ending rfl h
  case encCI8IDX8 => exact encodeVerbatim_ending rfl h
  case encRGBA16RGBA8 => exact encodeGroups_ending rfl h
  case encI4G8 => exact encodeGroups_ending rfl h
  case encI4GA8 => exact encodeGroups_ending rfl h
  case encI4RGB8 => exact encodeGroups_ending rfl h
  case encI4RGBA8 => exact encodeGroups_ending rfl h
  case encI8G4 => exact encodeGroups_ending rfl h
  case encI8GA8 => exact encodeGroups_ending rfl h
  case encI8RGB8 => exact encodeGroups_ending rfl h
  case encI8RGBA8 => exact encodeGroups_ending rfl h
  case encIA4GA8 => exact encodeGroups_ending rfl h
  case encIA8GA8 => exact encodeGroups_ending rfl h
  case encCI4IDX8 => exact encodeGroups_ending rfl h
  case encCI8IDX4 => exact encodeGroups_ending rfl h
  case encI4Other ctype depth => exact encodeRefused_ending rfl h
  case encI8Other ctype depth => exact encodeRefused_ending rfl h
  case encIA4Other ctype depth => exact encodeRefused_ending rfl h
  case encIA8Other ctype depth => exact encodeRefused_ending rfl h
  case encIA16Other ctype depth => exact encodeRefused_ending rfl h
  case encCI4Other ctype depth => exact encodeRefused_ending rfl h
  case encCI8Other ctype depth => exact encodeRefused_ending rfl h
  case encRGBA16Other ctype depth => exact encodeRefused_ending rfl h
  case encRGBA32Other ctype depth => exact encodeRefused_ending rfl h
  case pack16 => exact value_ending rfl h
  case unpack16 => exact value_ending rfl h
  case luma => exact value_ending rfl h
  case metaI4 => exact value_ending rfl h
  case metaI8 => exact value_ending rfl h
  case metaIA4 => exact value_ending rfl h
  case metaIA8 => exact value_ending rfl h
  case metaIA16 => exact value_ending rfl h
  case metaCI4 => exact value_ending rfl h
  case metaCI8 => exact value_ending rfl h
  case metaRGBA16 => exact value_ending rfl h
  case metaRGBA32 => exact value_ending rfl h

/-- The inversion lemma of a step: no action, or the oldest one performed on the state without it. -/
theorem step_cases {s t : State} (h : step s = .next t) :
    (s.host = [] ∧ t = s) ∨ (∃ a rest, s.host = a :: rest ∧ hostAct a { s with host := rest } = .next t) := by
  unfold step at h
  split at h
  · rename_i hq
    cases h
    exact .inl ⟨hq, rfl⟩
  · rename_i a rest hq
    exact .inr ⟨a, rest, hq, h⟩

/-- The inversion lemma of an issue (R29): the operation runs on the state R29 prepares, or the word is reserved. -/
theorem issue_cases {c : Word} {s t : State} (h : issue c s = .next t) :
    (∃ i, decode c = .ok i ∧ exec i (beginOperation c s) = .next t) ∨
      (∃ r, decode c = .error r ∧ t = raiseError .illegalCommand (beginOperation c s)) := by
  unfold issue at h
  split at h
  · rename_i i hi
    exact .inl ⟨i, hi, h⟩
  · rename_i r hr
    cases h
    exact .inr ⟨r, hr, rfl⟩

/-- The inversion lemma of a host register write (R29, R30). -/
theorem hostWriteReg_cases {n : Nat} {v : Word} {s t : State} (h : hostWriteReg n v s = .next t) :
    (n = 0 ∧ issue v s = .next t) ∨ (n = 1 ∧ t = { s with width := v }) ∨ (n = 2 ∧ t = { s with height := v }) ∨
      (n = 3 ∧ fits s.config.srcCap v.toNat = true ∧ t = { s with srcLen := v }) ∨
      (n = 4 ∧ fits s.config.palCap v.toNat = true ∧ t = { s with palLen := v }) ∨ (n = 5 ∧ t = { s with arg := v }) := by
  unfold hostWriteReg at h
  split at h
  · exact .inl ⟨rfl, h⟩
  · cases h; simp
  · cases h; simp
  · split at h
    · cases h; simp_all
    · cases h
  · split at h
    · cases h; simp_all
    · cases h
  · cases h; simp
  all_goals cases h

end Sys2Proof.Machine
end

