-- ==== Sys2Proof/Laws/Flags.lean ====
section
/-! SUPPORT. The fields of the status words the machine writes (R25, R26). -/

namespace Sys2Proof.Machine

@[simp] theorem stateField_statusWord (run : RunState) (k : BitVec 3) : stateField (statusWord run k) = run.code := by
  cases run <;> revert k <;> decide

@[simp] theorem errKindField_statusWord (run : RunState) (k : BitVec 3) : errKindField (statusWord run k) = k := by
  cases run <;> revert k <;> decide

/-- No bit outside the two fields is set. -/
theorem statusWord_reserved (run : RunState) (k : BitVec 3) : statusWord run k &&& ~~~0x73#32 = 0#32 := by
  cases run <;> revert k <;> decide

theorem doneStatus_eq : doneStatus = 1#32 := by decide

@[simp] theorem stateField_errStatus (e : OpError) : stateField (errStatus e) = 2 := stateField_statusWord ..

@[simp] theorem errKindField_errStatus (e : OpError) : errKindField (errStatus e) = e.code := errKindField_statusWord ..

theorem code_ne_zero (e : OpError) : e.code ≠ 0 := by cases e <;> simp [OpError.code]

theorem code_ne_seven (e : OpError) : e.code ≠ 7 := by cases e <;> simp [OpError.code]

end Sys2Proof.Machine
end

