-- ==== Sys2Proof/Laws/Ending.lean ====
section
/-! SUPPORT. The three endings of an operation in the words of Safety.lean, and what an output loop of chunks gives. -/

namespace Sys2Proof.Machine

/-- What `raiseError` does, once (R270). -/
theorem raiseError_entered (e : OpError) (s : State) : ErrorEntered s (raiseError e s) e.code.toNat e.info where
  state := by simp
  kind := by simp
  otherStatusBits := statusWord_reserved ..
  errInfo := rfl
  dstLen := rfl
  dstUnspecified := fun _ => rfl
  drawnAfresh := ⟨rfl, rfl⟩
  frame := rfl

/-- What `completeOutput` does, once (R29, R54). -/
theorem completeOutput_done (bs : List Byte) (s : State) :
    OutputDone s (completeOutput bs s) bs.length (fun k => bs.getD k 0) where
  status := doneStatus_eq
  errInfo := rfl
  dstLen := fun h => lengthWord_eq h
  output := fun k hk => by
    simp [recorded_store, hk]
  otherBytes := fun k hk => byteAt_store_outside .dst s.dst 0 bs k (.inr (by simpa using hk))
  frame := rfl

/-- An output byte reads as what was recorded. -/
theorem OutputDone.byteAt {s t : State} {n : Nat} {f : Nat → Byte} (h : OutputDone s t n f) {k : Nat} (hk : k < n) :
    t.byteAt .dst k = f k := by
  simp [State.byteAt, Memory.byteAt, h.output k hk]

theorem OutputDone.congr {s t : State} {m n : Nat} {f g : Nat → Byte} (h : OutputDone s t m f) (hmn : m = n)
    (hfg : ∀ k, k < n → f k = g k) : OutputDone s t n g := by
  subst hmn
  exact ⟨h.status, h.errInfo, h.dstLen, fun k hk => (h.output k hk).trans (congrArg some (hfg k hk)), h.otherBytes, h.frame⟩

/-- An operation that ends in an error fails with it. -/
theorem fails_of_error {i : Instr} {s : State} {e : OpError} (h : exec i s = finishOutput (.error e) s) :
    Fails i s e.code.toNat e.info :=
  ⟨raiseError e s, h, raiseError_entered e s⟩

/-- An operation that emits `n` chunks of `m` bytes which fit outputs them. -/
theorem outputs_of_chunks {i : Instr} {s : State} {n m : Nat} {item : Nat → Except OpError (List Byte)}
    {f : Nat → List Byte} (hexec : exec i s = finishOutput (emitAll s.config.dstCap n item) s)
    (hitem : ∀ k, k < n → item k = .ok (f k)) (hm : 0 < m) (hf : ∀ k, (f k).length = m)
    (hfits : OutputFits s (n * m)) : Outputs i s (n * m) (fun k => (f (k / m)).getD (k % m) 0) := by
  have hlen := flatMap_chunks_length hf 0 n
  have hemit : emitAll s.config.dstCap n item = .ok ((List.range' 0 n).flatMap f) :=
    emitLoop_ok (fun k _ hk => hitem k (by omega)) (by rw [hlen]; simpa using hfits)
  refine ⟨completeOutput ((List.range' 0 n).flatMap f) s, by rw [hexec, hemit]; rfl, ?_⟩
  refine (completeOutput_done _ s).congr hlen (fun k hk => ?_)
  simp [List.getD_eq_getElem?_getD, flatMap_chunks_getElem? hm hf 0 n k hk]

/-- An operation whose chunks do not fit ends in `Io`. -/
theorem fails_io_of_chunks {i : Instr} {s : State} {n m : Nat} {item : Nat → Except OpError (List Byte)}
    {f : Nat → List Byte} (hexec : exec i s = finishOutput (emitAll s.config.dstCap n item) s)
    (hitem : ∀ k, k < n → item k = .ok (f k)) (hf : ∀ k, (f k).length = m) (hfits : ¬ OutputFits s (n * m)) :
    Fails i s 5 0 := by
  have hlen := flatMap_chunks_length hf 0 n
  have hemit : emitAll s.config.dstCap n item = .error .io :=
    emitLoop_io (f := f) (fun k _ hk => hitem k (by omega)) (fits_zero _) (by rw [hlen]; simpa using hfits)
  exact fails_of_error (e := .io) (by rw [hexec, hemit])

/-- The first chunk that is an error is the operation's error, where what comes before it fits. -/
theorem fails_of_firstError {i : Instr} {s : State} {n m j : Nat} {e : OpError}
    {item : Nat → Except OpError (List Byte)} {f : Nat → List Byte}
    (hexec : exec i s = finishOutput (emitAll s.config.dstCap n item) s) (hj : j < n)
    (hitem : ∀ k, k < j → item k = .ok (f k)) (hf : ∀ k, (f k).length = m) (hfits : OutputFits s (j * m))
    (he : item j = .error e) : Fails i s e.code.toNat e.info := by
  have hlen := flatMap_chunks_length hf 0 j
  have hemit : emitAll s.config.dstCap n item = .error e :=
    emitLoop_firstError (f := f) hj (fun k _ hk => hitem k (by omega)) (by rw [hlen]; simpa using hfits)
      (by simpa using he)
  exact fails_of_error (by rw [hexec, hemit])

end Sys2Proof.Machine
end

