-- ==== Sys2Proof/Laws/PerInstr.lean ====
section
/-! SUPPORT. Laws made once per operation: the family `TableRow` says that every command word the encoder writes is on
its row of the opcode map (30_encoding R100). -/

namespace Sys2Proof.Laws

/-- The `match` and `mask` columns of R100. -/
def opcodeRow : Instr → Word × Word
  | .pack16 => (0x00000000#32, 0xFFFFFFFF#32)
  | .unpack16 => (0x01000000#32, 0xFFFFFFFF#32)
  | .luma => (0x02000000#32, 0xFFFFFFFF#32)
  | .tlutDecode _ => (0x10008000#32, 0xFFFF9FFF#32)
  | .tlutLookup _ => (0x11008000#32, 0xFFFF9FFF#32)
  | .decI4 _ _ => (0x20000000#32, 0xFFFF1FFF#32)
  | .decI8 _ _ => (0x21000000#32, 0xFFFF1FFF#32)
  | .decIA4 _ _ => (0x22000000#32, 0xFFFF1FFF#32)
  | .decIA8 _ _ => (0x23000000#32, 0xFFFF1FFF#32)
  | .decIA16 _ _ => (0x24000000#32, 0xFFFF1FFF#32)
  | .decCI4 _ _ => (0x25000000#32, 0xFFFF1FFF#32)
  | .decCI8 _ _ => (0x26000000#32, 0xFFFF1FFF#32)
  | .decRGBA16 _ _ => (0x27000000#32, 0xFFFF1FFF#32)
  | .decRGBA32 _ _ => (0x28000000#32, 0xFFFF1FFF#32)
  | .encRGBA32RGBA8 => (0x38680000#32, 0xFFFFFFFF#32)
  | .encRGBA16RGBA8 => (0x37680000#32, 0xFFFFFFFF#32)
  | .encI4G4 => (0x30040000#32, 0xFFFFFFFF#32)
  | .encI4G8 => (0x30080000#32, 0xFFFFFFFF#32)
  | .encI4GA8 => (0x30280000#32, 0xFFFFFFFF#32)
  | .encI4RGB8 => (0x30480000#32, 0xFFFFFFFF#32)
  | .encI4RGBA8 => (0x30680000#32, 0xFFFFFFFF#32)
  | .encI8G8 => (0x31080000#32, 0xFFFFFFFF#32)
  | .encI8G4 => (0x31040000#32, 0xFFFFFFFF#32)
  | .encI8GA8 => (0x31280000#32, 0xFFFFFFFF#32)
  | .encI8RGB8 => (0x31480000#32, 0xFFFFFFFF#32)
  | .encI8RGBA8 => (0x31680000#32, 0xFFFFFFFF#32)
  | .encIA4GA8 => (0x32280000#32, 0xFFFFFFFF#32)
  | .encIA8GA8 => (0x33280000#32, 0xFFFFFFFF#32)
  | .encIA16GA8 => (0x34280000#32, 0xFFFFFFFF#32)
  | .encCI4IDX4 => (0x35840000#32, 0xFFFFFFFF#32)
  | .encCI4IDX8 => (0x35880000#32, 0xFFFFFFFF#32)
  | .encCI8IDX8 => (0x36880000#32, 0xFFFFFFFF#32)
  | .encCI8IDX4 => (0x36840000#32, 0xFFFFFFFF#32)
  | .encI4Other _ _ => (0x30000000#32, 0xFF00FFFF#32)
  | .encI8Other _ _ => (0x31000000#32, 0xFF00FFFF#32)
  | .encIA4Other _ _ => (0x32000000#32, 0xFF00FFFF#32)
  | .encIA8Other _ _ => (0x33000000#32, 0xFF00FFFF#32)
  | .encIA16Other _ _ => (0x34000000#32, 0xFF00FFFF#32)
  | .encCI4Other _ _ => (0x35000000#32, 0xFF00FFFF#32)
  | .encCI8Other _ _ => (0x36000000#32, 0xFF00FFFF#32)
  | .encRGBA16Other _ _ => (0x37000000#32, 0xFF00FFFF#32)
  | .encRGBA32Other _ _ => (0x38000000#32, 0xFF00FFFF#32)
  | .metaI4 => (0x40000000#32, 0xFFFFFFFF#32)
  | .metaI8 => (0x41000000#32, 0xFFFFFFFF#32)
  | .metaIA4 => (0x42000000#32, 0xFFFFFFFF#32)
  | .metaIA8 => (0x43000000#32, 0xFFFFFFFF#32)
  | .metaIA16 => (0x44000000#32, 0xFFFFFFFF#32)
  | .metaCI4 => (0x45000000#32, 0xFFFFFFFF#32)
  | .metaCI8 => (0x46000000#32, 0xFFFFFFFF#32)
  | .metaRGBA16 => (0x47000000#32, 0xFFFFFFFF#32)
  | .metaRGBA32 => (0x48000000#32, 0xFFFFFFFF#32)

/-- The word of the operation selects its row: `c & mask = match` (R100). -/
def TableRow.Statement (i : Instr) : Prop :=
  encode i &&& (opcodeRow i).2 = (opcodeRow i).1

theorem TableRow.pack16 : TableRow.Statement .pack16 := by
  unfold TableRow.Statement
  decide

theorem TableRow.unpack16 : TableRow.Statement .unpack16 := by
  unfold TableRow.Statement
  decide

theorem TableRow.luma : TableRow.Statement .luma := by
  unfold TableRow.Statement
  decide

theorem TableRow.tlutDecode (psz : PaletteSize) : TableRow.Statement (.tlutDecode psz) := by
  unfold TableRow.Statement
  cases psz <;> decide

theorem TableRow.tlutLookup (psz : PaletteSize) : TableRow.Statement (.tlutLookup psz) := by
  unfold TableRow.Statement
  cases psz <;> decide

theorem TableRow.decI4 (p : Bool) (psz : PaletteSize) : TableRow.Statement (.decI4 p psz) := by
  unfold TableRow.Statement
  cases p <;> cases psz <;> decide

theorem TableRow.decI8 (p : Bool) (psz : PaletteSize) : TableRow.Statement (.decI8 p psz) := by
  unfold TableRow.Statement
  cases p <;> cases psz <;> decide

theorem TableRow.decIA4 (p : Bool) (psz : PaletteSize) : TableRow.Statement (.decIA4 p psz) := by
  unfold TableRow.Statement
  cases p <;> cases psz <;> decide

theorem TableRow.decIA8 (p : Bool) (psz : PaletteSize) : TableRow.Statement (.decIA8 p psz) := by
  unfold TableRow.Statement
  cases p <;> cases psz <;> decide

theorem TableRow.decIA16 (p : Bool) (psz : PaletteSize) : TableRow.Statement (.decIA16 p psz) := by
  unfold TableRow.Statement
  cases p <;> cases psz <;> decide

theorem TableRow.decCI4 (p : Bool) (psz : PaletteSize) : TableRow.Statement (.decCI4 p psz) := by
  unfold TableRow.Statement
  cases p <;> cases psz <;> decide

theorem TableRow.decCI8 (p : Bool) (psz : PaletteSize) : TableRow.Statement (.decCI8 p psz) := by
  unfold TableRow.Statement
  cases p <;> cases psz <;> decide

theorem TableRow.decRGBA16 (p : Bool) (psz : PaletteSize) : TableRow.Statement (.decRGBA16 p psz) := by
  unfold TableRow.Statement
  cases p <;> cases psz <;> decide

theorem TableRow.decRGBA32 (p : Bool) (psz : PaletteSize) : TableRow.Statement (.decRGBA32 p psz) := by
  unfold TableRow.Statement
  cases p <;> cases psz <;> decide

theorem TableRow.encRGBA32RGBA8 : TableRow.Statement .encRGBA32RGBA8 := by
  unfold TableRow.Statement
  decide

theorem TableRow.encRGBA16RGBA8 : TableRow.Statement .encRGBA16RGBA8 := by
  unfold TableRow.Statement
  decide

theorem TableRow.encI4G4 : TableRow.Statement .encI4G4 := by
  unfold TableRow.Statement
  decide

theorem TableRow.encI4G8 : TableRow.Statement .encI4G8 := by
  unfold TableRow.Statement
  decide

theorem TableRow.encI4GA8 : TableRow.Statement .encI4GA8 := by
  unfold TableRow.Statement
  decide

theorem TableRow.encI4RGB8 : TableRow.Statement .encI4RGB8 := by
  unfold TableRow.Statement
  decide

theorem TableRow.encI4RGBA8 : TableRow.Statement .encI4RGBA8 := by
  unfold TableRow.Statement
  decide

theorem TableRow.encI8G8 : TableRow.Statement .encI8G8 := by
  unfold TableRow.Statement
  decide

theorem TableRow.encI8G4 : TableRow.Statement .encI8G4 := by
  unfold TableRow.Statement
  decide

theorem TableRow.encI8GA8 : TableRow.Statement .encI8GA8 := by
  unfold TableRow.Statement
  decide

theorem TableRow.encI8RGB8 : TableRow.Statement .encI8RGB8 := by
  unfold TableRow.Statement
  decide

theorem TableRow.encI8RGBA8 : TableRow.Statement .encI8RGBA8 := by
  unfold TableRow.Statement
  decide

theorem TableRow.encIA4GA8 : TableRow.Statement .encIA4GA8 := by
  unfold TableRow.Statement
  decide

theorem TableRow.encIA8GA8 : TableRow.Statement .encIA8GA8 := by
  unfold TableRow.Statement
  decide

theorem TableRow.encIA16GA8 : TableRow.Statement .encIA16GA8 := by
  unfold TableRow.Statement
  decide

theorem TableRow.encCI4IDX4 : TableRow.Statement .encCI4IDX4 := by
  unfold TableRow.Statement
  decide

theorem TableRow.encCI4IDX8 : TableRow.Statement .encCI4IDX8 := by
  unfold TableRow.Statement
  decide

theorem TableRow.encCI8IDX8 : TableRow.Statement .encCI8IDX8 := by
  unfold TableRow.Statement
  decide

theorem TableRow.encCI8IDX4 : TableRow.Statement .encCI8IDX4 := by
  unfold TableRow.Statement
  decide

theorem TableRow.encI4Other (ctype : ColorType) (depth : BitVec 5) : TableRow.Statement (.encI4Other ctype depth) := by
  unfold TableRow.Statement
  cases ctype <;> revert depth <;> decide

theorem TableRow.encI8Other (ctype : ColorType) (depth : BitVec 5) : TableRow.Statement (.encI8Other ctype depth) := by
  unfold TableRow.Statement
  cases ctype <;> revert depth <;> decide

theorem TableRow.encIA4Other (ctype : ColorType) (depth : BitVec 5) : TableRow.Statement (.encIA4Other ctype depth) := by
  unfold TableRow.Statement
  cases ctype <;> revert depth <;> decide

theorem TableRow.encIA8Other (ctype : ColorType) (depth : BitVec 5) : TableRow.Statement (.encIA8Other ctype depth) := by
  unfold TableRow.Statement
  cases ctype <;> revert depth <;> decide

theorem TableRow.encIA16Other (ctype : ColorType) (depth : BitVec 5) : TableRow.Statement (.encIA16Other ctype depth) := by
  unfold TableRow.Statement
  cases ctype <;> revert depth <;> decide

theorem TableRow.encCI4Other (ctype : ColorType) (depth : BitVec 5) : TableRow.Statement (.encCI4Other ctype depth) := by
  unfold TableRow.Statement
  cases ctype <;> revert depth <;> decide

theorem TableRow.encCI8Other (ctype : ColorType) (depth : BitVec 5) : TableRow.Statement (.encCI8Other ctype depth) := by
  unfold TableRow.Statement
  cases ctype <;> revert depth <;> decide

theorem TableRow.encRGBA16Other (ctype : ColorType) (depth : BitVec 5) : TableRow.Statement (.encRGBA16Other ctype depth) := by
  unfold TableRow.Statement
  cases ctype <;> revert depth <;> decide

theorem TableRow.encRGBA32Other (ctype : ColorType) (depth : BitVec 5) : TableRow.Statement (.encRGBA32Other ctype depth) := by
  unfold TableRow.Statement
  cases ctype <;> revert depth <;> decide

theorem TableRow.metaI4 : TableRow.Statement .metaI4 := by
  unfold TableRow.Statement
  decide

theorem TableRow.metaI8 : TableRow.Statement .metaI8 := by
  unfold TableRow.Statement
  decide

theorem TableRow.metaIA4 : TableRow.Statement .metaIA4 := by
  unfold TableRow.Statement
  decide

theorem TableRow.metaIA8 : TableRow.Statement .metaIA8 := by
  unfold TableRow.Statement
  decide

theorem TableRow.metaIA16 : TableRow.Statement .metaIA16 := by
  unfold TableRow.Statement
  decide

theorem TableRow.metaCI4 : TableRow.Statement .metaCI4 := by
  unfold TableRow.Statement
  decide

theorem TableRow.metaCI8 : TableRow.Statement .metaCI8 := by
  unfold TableRow.Statement
  decide

theorem TableRow.metaRGBA16 : TableRow.Statement .metaRGBA16 := by
  unfold TableRow.Statement
  decide

theorem TableRow.metaRGBA32 : TableRow.Statement .metaRGBA32 := by
  unfold TableRow.Statement
  decide

end Sys2Proof.Laws
end

