-- ==== Sys2Proof/Tests/Slice0.lean ====
section
/-! SUPPORT. The model's own tests: ill-formed terms are refused, words written out from the spec's encoding decode to
their operations, one or two vectors of 95_test_vectors per operation run from a small state, and for every statement
with hypotheses a concrete state that meets them. Every expected value is the spec's; the comment of a test names the
vector. -/

namespace Sys2Proof.Tests

open Sys2Proof.Machine

/-! ## Small states -/

/-- The reset state with an image of `w` by `h` pixels, the bytes `src` in SRC and `pal` in PAL, and their lengths
declared. -/
def image (w h : Nat) (src pal : List Byte) : State :=
  { State.reset with
    width := BitVec.ofNat 32 w
    height := BitVec.ofNat 32 h
    srcLen := BitVec.ofNat 32 src.length
    palLen := BitVec.ofNat 32 pal.length
    src := (Memory.unwritten 0).store 0 src
    pal := (Memory.unwritten 0).store 0 pal }

/-- The state of an encode of `src`. -/
def source (src : List Byte) : State := image 0 0 src []

/-- The reset state with an operand in `ARG`. -/
def operand (arg : Word) : State := { State.reset with arg := arg }

def withConfig (cfg : Config) (s : State) : State := { s with config := cfg }

def withDstCap (n : Nat) (s : State) : State := withConfig { s.config with dstCap := some n } s

def withArg (arg : Word) (s : State) : State := { s with arg := arg }

/-- `STATUS` and the recorded bytes of DST after the host has written the word to CMD. -/
def ran (word : Nat) (s : State) : Option (Word × List Byte) :=
  match step (s.withFetchWord 32 word) with
  | .next t => some (t.status, t.dst.cells.map Prod.snd)
  | .fault _ => none
  | .refused _ => none

/-- `STATUS`, `RES`, `ERRINFO` and `DST_LEN` after the host has written the word to CMD. -/
def registers (word : Nat) (s : State) : Option (Word × Word × Word × Word) :=
  match step (s.withFetchWord 32 word) with
  | .next t => some (t.status, t.res, t.errInfo, t.dstLen)
  | .fault _ => none
  | .refused _ => none

/-- The state after an operation. -/
def after (i : Instr) (s : State) : State :=
  match exec i s with
  | .next t => t
  | .fault _ => s
  | .refused _ => s

/-- The reference palette of V-T1. -/
def palette : List Byte :=
  [0x07, 0xC0, 0x17, 0x43, 0x26, 0xC4, 0x36, 0x47, 0x45, 0xC8, 0x55, 0x4B, 0x64, 0xCC, 0x74, 0x4F] ++
  [0x83, 0xD0, 0x93, 0x53, 0xA2, 0xD4, 0xB2, 0x57, 0xC1, 0xD8, 0xD1, 0x5B, 0xE0, 0xDC, 0xF0, 0x5F]

/-! ## Well-formedness: a catch-all with an accepted shape is refused -/

theorem test_illFormed_I4 : (Instr.encI4Other .g 4).wellFormed = false := by decide
theorem test_illFormed_I8 : (Instr.encI8Other .rgb 8).wellFormed = false := by decide
theorem test_illFormed_IA4 : (Instr.encIA4Other .ga 8).wellFormed = false := by decide
theorem test_illFormed_IA8 : (Instr.encIA8Other .ga 8).wellFormed = false := by decide
theorem test_illFormed_IA16 : (Instr.encIA16Other .ga 8).wellFormed = false := by decide
theorem test_illFormed_CI4 : (Instr.encCI4Other .idx 4).wellFormed = false := by decide
theorem test_illFormed_CI8 : (Instr.encCI8Other .idx 8).wellFormed = false := by decide
theorem test_illFormed_RGBA16 : (Instr.encRGBA16Other .rgba 8).wellFormed = false := by decide
theorem test_illFormed_RGBA32 : (Instr.encRGBA32Other .rgba 8).wellFormed = false := by decide

/-- S7, V-E18: rejected shapes are well-formed catch-alls. -/
theorem test_wellFormed_others :
    [Instr.encI4Other .g 31, .encI8Other .idx 8, .encIA4Other .g 8, .encIA8Other .rgba 8, .encIA16Other .ga 4,
      .encCI4Other .g 4, .encCI8Other .idx 2, .encRGBA16Other .rgba 4, .encRGBA32Other .rgb 8].all
        Instr.wellFormed = true := by decide

/-! ## Decoding: words from the fields of R80 (CLASS, SEL, CTYPE, DEPTH, P, PSZ, ZERO) and the rows of R100 -/

theorem test_decode_prim :
    decode 0b0000_0000_000_00000_0_00_0000000000000#32 = .ok .pack16 ∧
    decode 0b0000_0001_000_00000_0_00_0000000000000#32 = .ok .unpack16 ∧
    decode 0b0000_0010_000_00000_0_00_0000000000000#32 = .ok .luma := by decide

theorem test_decode_tlut :
    decode 0b0001_0000_000_00000_1_00_0000000000000#32 = .ok (.tlutDecode .s4b) ∧
    decode 0b0001_0000_000_00000_1_10_0000000000000#32 = .ok (.tlutDecode .s16b) ∧
    decode 0b0001_0001_000_00000_1_01_0000000000000#32 = .ok (.tlutLookup .s8b) ∧
    decode 0b0001_0001_000_00000_1_11_0000000000000#32 = .ok (.tlutLookup .s32b) := by decide

theorem test_decode_dec :
    decode 0b0010_0000_000_00000_0_00_0000000000000#32 = .ok (.decI4 false .s4b) ∧
    decode 0b0010_0001_000_00000_1_01_0000000000000#32 = .ok (.decI8 true .s8b) ∧
    decode 0b0010_0010_000_00000_0_10_0000000000000#32 = .ok (.decIA4 false .s16b) ∧
    decode 0b0010_0011_000_00000_1_11_0000000000000#32 = .ok (.decIA8 true .s32b) ∧
    decode 0b0010_0100_000_00000_0_00_0000000000000#32 = .ok (.decIA16 false .s4b) ∧
    decode 0b0010_0101_000_00000_1_00_0000000000000#32 = .ok (.decCI4 true .s4b) ∧
    decode 0b0010_0110_000_00000_0_01_0000000000000#32 = .ok (.decCI8 false .s8b) ∧
    decode 0b0010_0111_000_00000_1_10_0000000000000#32 = .ok (.decRGBA16 true .s16b) ∧
    decode 0b0010_1000_000_00000_1_11_0000000000000#32 = .ok (.decRGBA32 true .s32b) := by decide

theorem test_decode_enc_colour :
    decode 0b0011_1000_011_01000_0_00_0000000000000#32 = .ok .encRGBA32RGBA8 ∧
    decode 0b0011_0111_011_01000_0_00_0000000000000#32 = .ok .encRGBA16RGBA8 ∧
    decode 0b0011_0000_000_00100_0_00_0000000000000#32 = .ok .encI4G4 ∧
    decode 0b0011_0000_000_01000_0_00_0000000000000#32 = .ok .encI4G8 ∧
    decode 0b0011_0000_001_01000_0_00_0000000000000#32 = .ok .encI4GA8 ∧
    decode 0b0011_0000_010_01000_0_00_0000000000000#32 = .ok .encI4RGB8 ∧
    decode 0b0011_0000_011_01000_0_00_0000000000000#32 = .ok .encI4RGBA8 ∧
    decode 0b0011_0001_000_01000_0_00_0000000000000#32 = .ok .encI8G8 ∧
    decode 0b0011_0001_000_00100_0_00_0000000000000#32 = .ok .encI8G4 ∧
    decode 0b0011_0001_001_01000_0_00_0000000000000#32 = .ok .encI8GA8 ∧
    decode 0b0011_0001_010_01000_0_00_0000000000000#32 = .ok .encI8RGB8 ∧
    decode 0b0011_0001_011_01000_0_00_0000000000000#32 = .ok .encI8RGBA8 := by decide

theorem test_decode_enc_alpha_and_index :
    decode 0b0011_0010_001_01000_0_00_0000000000000#32 = .ok .encIA4GA8 ∧
    decode 0b0011_0011_001_01000_0_00_0000000000000#32 = .ok .encIA8GA8 ∧
    decode 0b0011_0100_001_01000_0_00_0000000000000#32 = .ok .encIA16GA8 ∧
    decode 0b0011_0101_100_00100_0_00_0000000000000#32 = .ok .encCI4IDX4 ∧
    decode 0b0011_0101_100_01000_0_00_0000000000000#32 = .ok .encCI4IDX8 ∧
    decode 0b0011_0110_100_01000_0_00_0000000000000#32 = .ok .encCI8IDX8 ∧
    decode 0b0011_0110_100_00100_0_00_0000000000000#32 = .ok .encCI8IDX4 := by decide

theorem test_decode_enc_other :
    decode 0b0011_0000_000_11111_0_00_0000000000000#32 = .ok (.encI4Other .g 31) ∧
    decode 0b0011_0001_100_01000_0_00_0000000000000#32 = .ok (.encI8Other .idx 8) ∧
    decode 0b0011_0010_000_01000_0_00_0000000000000#32 = .ok (.encIA4Other .g 8) ∧
    decode 0b0011_0011_011_01000_0_00_0000000000000#32 = .ok (.encIA8Other .rgba 8) ∧
    decode 0b0011_0100_001_00100_0_00_0000000000000#32 = .ok (.encIA16Other .ga 4) ∧
    decode 0b0011_0101_000_00100_0_00_0000000000000#32 = .ok (.encCI4Other .g 4) ∧
    decode 0b0011_0110_100_00010_0_00_0000000000000#32 = .ok (.encCI8Other .idx 2) ∧
    decode 0b0011_0111_011_00100_0_00_0000000000000#32 = .ok (.encRGBA16Other .rgba 4) ∧
    decode 0b0011_1000_010_01000_0_00_0000000000000#32 = .ok (.encRGBA32Other .rgb 8) := by decide

theorem test_decode_meta :
    decode 0b0100_0000_000_00000_0_00_0000000000000#32 = .ok .metaI4 ∧
    decode 0b0100_0001_000_00000_0_00_0000000000000#32 = .ok .metaI8 ∧
    decode 0b0100_0010_000_00000_0_00_0000000000000#32 = .ok .metaIA4 ∧
    decode 0b0100_0011_000_00000_0_00_0000000000000#32 = .ok .metaIA8 ∧
    decode 0b0100_0100_000_00000_0_00_0000000000000#32 = .ok .metaIA16 ∧
    decode 0b0100_0101_000_00000_0_00_0000000000000#32 = .ok .metaCI4 ∧
    decode 0b0100_0110_000_00000_0_00_0000000000000#32 = .ok .metaCI8 ∧
    decode 0b0100_0111_000_00000_0_00_0000000000000#32 = .ok .metaRGBA16 ∧
    decode 0b0100_1000_000_00000_0_00_0000000000000#32 = .ok .metaRGBA32 := by decide

/-- V-X1 to V-X16, each refused by the clause of R88 the vector names (or the first of them). -/
theorem test_decode_reserved :
    decode 0x50000000#32 = .error .classCode ∧ decode 0xFFFFFFFF#32 = .error .zeroField ∧
    decode 0x00000001#32 = .error .zeroField ∧ decode 0x03000000#32 = .error .selCode ∧
    decode 0x00010000#32 = .error .shapeBits ∧ decode 0x12008000#32 = .error .selCode ∧
    decode 0x10000000#32 = .error .paletteAbsent ∧ decode 0x29000000#32 = .error .selCode ∧
    decode 0x20080000#32 = .error .shapeBits ∧ decode 0x20001000#32 = .error .zeroField ∧
    decode 0x30A80000#32 = .error .colorTypeCode ∧ decode 0x39680000#32 = .error .selCode ∧
    decode 0x30688000#32 = .error .paletteBits ∧ decode 0x49000000#32 = .error .selCode ∧
    decode 0x40080000#32 = .error .shapeBits ∧ decode 0x2F00E000#32 = .error .selCode := by decide

theorem test_decodeTableWord : decodeTableWord 32 0x35880000 = some .encCI4IDX8 ∧
    decodeTableWord 32 0x135880000 = some .encCI4IDX8 ∧ decodeTableWord 32 0x50000000 = none := by decide

/-- R80: the encoder against hand-written words. -/
theorem test_encode : encode .luma = 0x02000000#32 ∧ encode (.tlutLookup .s8b) = 0x1100A000#32 ∧
    encode (.decCI4 true .s8b) = 0x2500A000#32 ∧ encode (.encI4Other .rgba 16) = 0x30700000#32 ∧
    encode .metaRGBA32 = 0x48000000#32 := by decide

/-! ## Colour primitives (V-P1, V-P2, V-P3) -/

theorem test_pack16 : registers 0x00000000 (operand 0x123456FF) = some (1, 0x1195, 0, 0) := by decide
theorem test_pack16_alpha : registers 0x00000000 (operand 0xC8643280) = some (1, 0xCB0C, 0, 0) := by decide
theorem test_unpack16 : registers 0x01000000 (operand 0xABCD1195) = some (1, 0x103050FF, 0, 0) := by decide
theorem test_unpack16_top : registers 0x01000000 (operand 0x00008000) = some (1, 0x80000000, 0, 0) := by decide
theorem test_luma : registers 0x02000000 (operand 0xC86432AB) = some (1, 117, 0, 0) := by decide
/-- The grey boundary, and the value U6 fixes for every other intensity function. -/
theorem test_luma_boundary : registers 0x02000000 (operand 0x01010100) = some (1, 1, 0, 0) ∧
    registers 0x02000000 (withConfig { Config.default with lumaRule := .other 3 } (operand 0xFF000000)) =
      some (1, 54, 0, 0) := by decide

/-! ## Palette table (V-T1, V-T2, V-T3) -/

theorem test_tlutDecode : ran 0x10008000 (image 0 0 [] palette) = some (1,
    [0x00, 0xF8, 0x00, 0x00, 0x10, 0xE8, 0x08, 0xFF, 0x20, 0xD8, 0x10, 0x00, 0x30, 0xC8, 0x18, 0xFF] ++
    [0x40, 0xB8, 0x20, 0x00, 0x50, 0xA8, 0x28, 0xFF, 0x60, 0x98, 0x30, 0x00, 0x70, 0x88, 0x38, 0xFF] ++
    [0x80, 0x78, 0x40, 0x00, 0x90, 0x68, 0x48, 0xFF, 0xA0, 0x58, 0x50, 0x00, 0xB0, 0x48, 0x58, 0xFF] ++
    [0xC0, 0x38, 0x60, 0x00, 0xD0, 0x28, 0x68, 0xFF, 0xE0, 0x18, 0x70, 0x00, 0xF0, 0x08, 0x78, 0xFF]) := by decide
theorem test_tlutDecode_short : ran 0x10008000 (image 0 0 [] (palette.take 31)) = some (0x12, []) := by decide
theorem test_tlutLookup :
    registers 0x11008000 (withArg 0x10A (image 0 0 [] palette)) = some (1, 0xA0585000, 0, 0) := by decide
theorem test_tlutLookup_range :
    registers 0x11008000 (withArg 0x10 (image 0 0 [] palette)) = some (0x42, 0, 0, 0) ∧
    registers 0x11008000 (withArg 0x10 (image 0 0 [] (palette.take 31))) = some (0x12, 0, 0, 0) := by decide

/-! ## Decode (V-D1 to V-D14) -/

theorem test_decRGBA32 : ran 0x2800E000 (image 1 1 [1, 2, 3, 4] []) = some (1, [1, 2, 3, 4]) := by decide
theorem test_decRGBA32_short : ran 0x28000000 (image 2 1 [1, 2, 3, 4, 5, 6, 7] []) = some (0x12, []) := by decide
theorem test_decRGBA16 : ran 0x27000000 (image 2 1 [0xF8, 0x01, 0x11, 0x94] []) =
    some (1, [0xF8, 0x00, 0x00, 0xFF, 0x10, 0x30, 0x50, 0x00]) := by decide
theorem test_decCI4 : ran 0x25008000 (image 3 1 [0x12, 0x3F] palette) =
    some (1, [0x10, 0xE8, 0x08, 0xFF, 0x20, 0xD8, 0x10, 0x00, 0x30, 0xC8, 0x18, 0xFF]) := by decide
theorem test_decCI4_errors : ran 0x25000000 (image 2 1 [0xAB] []) = some (0x22, []) ∧
    ran 0x25008000 (image 3 1 [0x12] palette) = some (0x12, []) := by decide
theorem test_decCI8 : ran 0x26008000 (image 2 1 [0x00, 0x0F] palette) =
    some (1, [0x00, 0xF8, 0x00, 0x00, 0xF0, 0x08, 0x78, 0xFF]) := by decide
theorem test_decCI8_errors : ran 0x26008000 (image 2 1 [0x10] palette) = some (0x42, []) ∧
    ran 0x26008000 (image 2 1 [0x01] palette) = some (0x12, []) ∧
    ran 0x26000000 (image 0 0 [] []) = some (0x22, []) := by decide
theorem test_decIA4 : ran 0x22000000 (image 2 2 [0xA5, 0x3C] []) =
    some (1, [0xA0, 0xA0, 0xA0, 0, 0x40, 0x40, 0x40, 0xFF, 0x20, 0x20, 0x20, 0xFF, 0xC0, 0xC0, 0xC0, 0]) := by decide
theorem test_decIA8 : ran 0x23000000 (image 2 1 [0xF3, 0x0F] []) =
    some (1, [0xF0, 0xF0, 0xF0, 0x30, 0, 0, 0, 0xF0]) := by decide
theorem test_decIA16 : ran 0x24000000 (image 1 2 [0x80, 0x40, 0xFF, 0x00] []) =
    some (1, [0x80, 0x80, 0x80, 0x40, 0xFF, 0xFF, 0xFF, 0x00]) := by decide
theorem test_decI4 : ran 0x20000000 (image 3 1 [0xFF, 0x1F] []) =
    some (1, [0xF0, 0xF0, 0xF0, 0xF0, 0xF0, 0xF0, 0xF0, 0xF0, 0x10, 0x10, 0x10, 0x10]) := by decide
/-- U10: with an even width or one row every reading agrees, also without `PACK_LINEAR`. -/
theorem test_decI4_layouts :
    ran 0x20000000 (withConfig { Config.default with packLinear := false } (image 2 2 [0xA5, 0x3C] [])) =
      ran 0x20000000 (image 4 1 [0xA5, 0x3C] []) ∧
    ran 0x20000000 (withConfig { Config.default with packLinear := false } (image 3 1 [0xA5, 0x3C] [])) =
      ran 0x20000000 (image 3 1 [0xA5, 0x3C] []) := by decide
theorem test_decI4_noPixels : ran 0x20000000 (image 0 5 [] []) = some (1, []) := by decide
theorem test_decI8 : ran 0x2100A000 (image 1 1 [0x11, 0x22, 0x33] []) = some (1, [0x11, 0x11, 0x11, 0x11]) := by
  decide
theorem test_decI8_short : ran 0x21000000 (image 3 1 [0x11, 0x22] []) = some (0x12, []) := by decide

/-! ## Encode (V-E1 to V-E18) -/

theorem test_encRGBA32RGBA8 : ran 0x38680000 (source [1, 2, 3, 4, 5]) = some (1, [1, 2, 3, 4, 5]) := by decide
theorem test_encRGBA16RGBA8 : ran 0x37680000 (source [0xFF, 0, 0, 0xFF, 0x12, 0x34, 0x56, 0xFE, 9, 9]) =
    some (1, [0xF8, 0x01, 0x11, 0x94]) := by decide
theorem test_encI4G4 : ran 0x30040000 (source [0xA5, 0x3C]) = some (1, [0xA5, 0x3C]) := by decide
theorem test_encI4G8 : ran 0x30080000 (source [0xAB, 0xCD, 0x12, 0x34, 0x99]) = some (1, [0xAC, 0x13]) := by decide
theorem test_encI4GA8 : ran 0x30280000 (source [0xAB, 0x00, 0xCD, 0xFF]) = some (1, [0xAC]) := by decide
theorem test_encI4RGB8 : ran 0x30480000 (source [0xC8, 0x64, 0x32, 0x0A, 0x14, 0x1E]) = some (1, [0x71]) := by decide
theorem test_encI4RGBA8 : ran 0x30680000 (source [0xA0, 0xA0, 0xA0, 0xA0, 0x50, 0x50, 0x50, 0x50]) =
    some (1, [0xAA]) := by decide
theorem test_encI4RGBA8_fixed :
    ran 0x30680000 (withConfig { Config.default with i4RgbaDoubleRead := false }
      (source [0xA0, 0xA0, 0xA0, 0xA0, 0x50, 0x50, 0x50, 0x50])) = some (1, [0xA5]) := by decide
theorem test_encI8G8 : ran 0x31080000 (source [0x00, 0xC8]) = some (1, [0x00, 0xC8]) := by decide
theorem test_encI8G4 : ran 0x31040000 (source [0xA5, 0x0F]) = some (1, [0xA0, 0x50, 0x00, 0xF0]) := by decide
theorem test_encI8G4_otherModes :
    ran 0x31040000 (withConfig { Config.default with encI8G4Mode := .expandReplicate } (source [0xA5, 0x0F])) =
      some (1, [0xAA, 0x55, 0x00, 0xFF]) ∧
    ran 0x31040000 (withConfig { Config.default with encI8G4Mode := .fold } (source [0xA5, 0x0F])) =
      some (1, [0x5F]) := by decide
theorem test_encI8GA8 : ran 0x31280000 (source [0x11, 0x22, 0x33, 0x44, 0x55]) = some (1, [0x11, 0x33]) := by decide
theorem test_encI8RGB8 : ran 0x31480000 (source [0xFF, 0, 0, 0, 0xFF, 0, 0, 0, 0xFF, 1]) =
    some (1, [0x36, 0xB6, 0x12]) := by decide
theorem test_encI8RGBA8 : ran 0x31680000 (source [0xC8, 0x64, 0x32, 0x00, 0x0A, 0x14, 0x1E, 0xFF]) =
    some (1, [0x75, 0x12]) := by decide
theorem test_encIA4GA8 : ran 0x32280000 (source [0xFF, 0xFF, 0x20, 0x7F]) = some (1, [0xF2]) := by decide
theorem test_encIA4GA8_threshold : ran 0x32280000 (source [0xE0, 0x80, 0x1F, 0x7F, 1, 2]) = some (1, [0xF0]) := by
  decide
theorem test_encIA8GA8 : ran 0x33280000 (source [0xF0, 0x30, 0xFF, 0x00, 0x12, 0xFF]) =
    some (1, [0xF3, 0xFF, 0x1F]) := by decide
theorem test_encIA8GA8_masked :
    ran 0x33280000 (withConfig { Config.default with ia8EncMaskGray := true }
      (source [0xF0, 0x30, 0xFF, 0x00, 0x12, 0xFF])) = some (1, [0xF3, 0xF0, 0x1F]) := by decide
theorem test_encIA16GA8 : ran 0x34280000 (source [0x80, 0x40, 0xFF]) = some (1, [0x80, 0x40, 0xFF]) := by decide
theorem test_encCI4IDX4 : ran 0x35840000 (source [0xAB]) = some (1, [0xAB]) := by decide
theorem test_encCI4IDX8 : ran 0x35880000 (source [0x0A, 0x0B, 1, 2, 3]) = some (1, [0xAB, 0x12]) := by decide
theorem test_encCI8IDX8 : ran 0x36880000 (source [0x00, 0x0F]) = some (1, [0x00, 0x0F]) := by decide
theorem test_encCI8IDX4 : ran 0x36840000 (source [0xAB, 0xCD]) = some (1, [0xFD]) := by decide
theorem test_encI4Other : registers 0x30700000 (source [1]) = some (0x32, 0, 0x70, 0) := by decide
theorem test_encI8Other : registers 0x31880000 (source [1]) = some (0x32, 0, 0x88, 0) := by decide
theorem test_encIA4Other : registers 0x32080000 (source [1]) = some (0x32, 0, 0x08, 0) := by decide
theorem test_encIA8Other : registers 0x33680000 (source [1]) = some (0x32, 0, 0x68, 0) := by decide
theorem test_encIA16Other : registers 0x34240000 (source [1]) = some (0x32, 0, 0x24, 0) := by decide
theorem test_encCI4Other : registers 0x35040000 (source []) = some (0x32, 0, 0x04, 0) := by decide
theorem test_encCI8Other : registers 0x36820000 (source []) = some (0x32, 0, 0x82, 0) := by decide
theorem test_encRGBA16Other : registers 0x37640000 (source []) = some (0x32, 0, 0x64, 0) := by decide
theorem test_encRGBA32Other : registers 0x38480000 (source []) = some (0x32, 0, 0x48, 0) := by decide

/-! ## Container metadata (V-M) -/

theorem test_metaI4 : registers 0x40000000 State.reset = some (1, 0x68, 0, 0) := by decide
theorem test_metaI8 : registers 0x41000000 State.reset = some (1, 0x68, 0, 0) := by decide
theorem test_metaIA4 : registers 0x42000000 State.reset = some (1, 0x68, 0, 0) := by decide
theorem test_metaIA8 : registers 0x43000000 State.reset = some (1, 0x68, 0, 0) := by decide
theorem test_metaIA16 : registers 0x44000000 State.reset = some (1, 0x68, 0, 0) := by decide
theorem test_metaCI4 : registers 0x45000000 State.reset = some (1, 0x188, 0, 0) := by decide
theorem test_metaCI8 : registers 0x46000000 State.reset = some (1, 0x188, 0, 0) := by decide
theorem test_metaRGBA16 : registers 0x47000000 State.reset = some (1, 0x68, 0, 0) := by decide
theorem test_metaRGBA32 : registers 0x48000000 State.reset = some (1, 0x68, 0, 0) := by decide

/-! ## Errors and the host -/

/-- R270, V-X1: a reserved word leaves `RES` and the descriptors alone and records `IllegalCommand`. -/
theorem test_reserved_word : registers 0x50000000 { operand 5 with res := 7, errInfo := 9, dstLen := 3 } =
    some (0x62, 7, 0, 0) := by decide

/-- R270: after an error no byte of DST is recorded. -/
theorem test_error_forgets_output : ran 0x26000000 { State.reset with dst := (Memory.unwritten 0).store 0 [1, 2] } =
    some (0x22, []) := by decide

/-- R54: a shorter output leaves the bytes beyond it in place. -/
theorem test_output_keeps_the_rest :
    ran 0x31080000 { source [9] with dst := (Memory.unwritten 0).store 0 [1, 2] } = some (1, [9, 2]) := by decide

/-- R54, R266: an output beyond a finite `DST_CAP` is `Io`. -/
theorem test_output_capacity : ran 0x31080000 (withDstCap 1 (source [1, 2])) = some (0x52, []) ∧
    ran 0x31080000 (withDstCap 2 (source [1, 2])) = some (1, [1, 2]) := by decide

/-- The one action of a host queue, by the number of the outcome: 0 next, 1 fault, 2 refusal. -/
def outcomeOf (a : HostAction) (cfg : Config) : Nat :=
  match step { State.reset with host := [a], config := cfg } with
  | .next _ => 0
  | .fault _ => 1
  | .refused _ => 2

/-- U8: read-only registers and numbers above 9. -/
theorem test_host_refusals :
    [HostAction.writeReg 5 1, .readReg 9, .writeReg 6 1, .writeReg 9 1, .writeReg 10 1, .readReg 10].map
      (outcomeOf · Config.default) = [0, 0, 2, 2, 2, 2] := by decide

/-- R9, U9: a finite capacity bounds the lengths and the offsets. -/
theorem test_host_capacity :
    [HostAction.writeReg 3 2, .writeReg 3 3, .writeByte .src 1 0, .writeByte .src 2 0, .readByte .src 2,
      .writeByte .pal 9 0, .writeByte .dst 0 0].map
      (outcomeOf · { Config.default with srcCap := some 2 }) = [0, 2, 0, 1, 1, 0, 2] := by decide

/-- R292: bytes written out of order by the host are read back by an operation. -/
theorem test_host_bytes :
    (match step { State.reset with host := [.writeByte .src 3 7], src := (Memory.unwritten 0).store 0 [1] } with
      | .next t => t.src.cells
      | .fault _ => []
      | .refused _ => []) = [(0, 1), (3, 7)] := by decide

/-! ## Witnesses: for each statement with hypotheses, concrete values that meet them, each clause at a boundary -/

/-- A state whose host queue holds the action. -/
def asked (a : HostAction) (s : State) : State := { s with host := [a] }

/-- Finite capacities: 4 bytes of SRC, 2 of PAL, 8 of DST. -/
def smallBuffers : Config := { Config.default with srcCap := some 4, palCap := some 2, dstCap := some 8 }

/-- A state with the invariant about to issue `META.I4`. -/
def aboutToIssue : State := asked (.writeReg 0 0x40000000) State.reset

theorem witness_StateInv : StateInv aboutToIssue where
  status := by unfold StatusLegal; decide
  errInfo := by decide
  noOutputAfterError := fun _ => rfl
  outputRecorded := by decide
  srcLenFits := rfl
  palLenFits := rfl
  srcLegal := by unfold MemoryLegal; decide
  palLegal := by unfold MemoryLegal; decide
  dstLegal := by unfold MemoryLegal; decide

theorem witness_ResetActionZeroesTheBlock : (asked .reset (image 2 1 [1, 2] [])).host = .reset :: [] := rfl

/-- A step out of a state with the invariant: an issue that succeeds. -/
theorem witness_StepKeepsTheInvariant :
    StateInv aboutToIssue ∧ ∃ t, step aboutToIssue = .next t ∧ t.status = 1#32 :=
  ⟨witness_StateInv, _, rfl, by decide⟩

theorem witness_StepRunsTheDecodedOperation :
    (asked (.writeReg 0 0x28002000) State.reset).host = .writeReg 0 0x28002000#32 :: [] ∧
    decode 0x28002000#32 = .ok (.decRGBA32 false .s8b) := ⟨rfl, by decide⟩

/-- Each clause of the reserved words at its boundary. -/
theorem witness_ReservedWordsRaiseIllegalCommand :
    reservedWord 0x00000001#32 ∧ reservedWord 0x00001000#32 ∧ reservedWord 0x50000000#32 ∧
    reservedWord 0x03000000#32 ∧ reservedWord 0x12008000#32 ∧ reservedWord 0x29000000#32 ∧
    reservedWord 0x49000000#32 ∧ reservedWord 0x20010000#32 ∧ reservedWord 0x40200000#32 ∧
    reservedWord 0x30A00000#32 ∧ reservedWord 0x30882000#32 ∧ reservedWord 0x00008000#32 ∧
    reservedWord 0x10000000#32 ∧ (asked (.writeReg 0 0x50000000) State.reset).host = .writeReg 0 0x50000000#32 :: [] := by
  and_intros <;> decide

/-- The words beside the boundaries that select an operation. -/
theorem witness_notReserved :
    ¬ reservedWord 0x02000000#32 ∧ ¬ reservedWord 0x11008000#32 ∧ ¬ reservedWord 0x28000000#32 ∧
    ¬ reservedWord 0x48000000#32 ∧ ¬ reservedWord 0x309F0000#32 ∧ ¬ reservedWord 0x1000E000#32 ∧
    ¬ reservedWord 0x2000E000#32 := by
  and_intros <;> decide

theorem witness_DecodeAndEncodeAgree : (Instr.encI4Other .rgba 31).wellFormed = true ∧
    (Instr.decCI8 true .s32b).wellFormed = true ∧ decode 0x307F0000#32 = .ok (.encI4Other .rgba 31) := by decide

theorem witness_HostRegisterAccess :
    let s := asked (.writeReg 3 4) { State.reset with config := smallBuffers }
    let u := asked (.writeReg 4 2) { State.reset with config := smallBuffers }
    s.host = .writeReg 3 4 :: [] ∧ fits s.config.srcCap (4#32).toNat = true ∧
    u.host = .writeReg 4 2 :: [] ∧ fits u.config.palCap (2#32).toNat = true ∧
    (asked (.writeReg 1 0xFFFFFFFF) s).host = .writeReg 1 0xFFFFFFFF :: [] ∧
    (asked (.writeReg 2 0) s).host = .writeReg 2 0 :: [] ∧ (asked (.writeReg 5 1) s).host = .writeReg 5 1 :: [] ∧
    (asked (.writeReg 6 1) s).host = .writeReg 6 1 :: [] ∧ (asked (.writeReg 10 1) s).host = .writeReg 10 1 :: [] ∧
    (asked (.readReg 9) s).host = .readReg 9 :: [] ∧ (asked (.readReg 9) s).register 9 = some 0#32 ∧
    (asked (.readReg 10) s).host = .readReg 10 :: [] := by decide

theorem witness_HostByteWriteChangesOneByte :
    let s := asked (.writeByte .src 3 7) { State.reset with config := smallBuffers }
    let u := asked (.writeByte .pal 1 7) { State.reset with config := smallBuffers }
    Space.src ≠ Space.dst ∧ Space.pal ≠ Space.dst ∧ fits (capacity s.config .src) (3 + 1) = true ∧
    fits (capacity u.config .pal) (1 + 1) = true ∧ s.host = .writeByte .src 3 7 :: [] ∧
    u.host = .writeByte .pal 1 7 :: [] ∧ (s.memory .src).wf := by decide

theorem witness_HostByteReadReturnsTheByte :
    let s := asked (.readByte .dst 7) { State.reset with config := smallBuffers }
    fits (capacity s.config .dst) (7 + 1) = true ∧ s.host = .readByte .dst 7 :: [] := by decide

/-- Legal and illegal actions side by side. -/
theorem witness_StepStopsExactlyOnIllegalHostActions :
    let s := { State.reset with config := smallBuffers }
    (asked (.writeReg 5 0) s).host = .writeReg 5 0 :: [] ∧ legalAction s (.writeReg 5 0) = true ∧
    legalAction s (.writeReg 6 0) = false ∧ legalAction s (.writeReg 3 4) = true ∧
    legalAction s (.writeReg 3 5) = false ∧ legalAction s (.writeReg 4 2) = true ∧
    legalAction s (.writeReg 4 3) = false ∧ legalAction s (.readReg 9) = true ∧ legalAction s (.readReg 10) = false ∧
    legalAction s (.writeByte .src 3 0) = true ∧ legalAction s (.writeByte .src 4 0) = false ∧
    legalAction s (.writeByte .dst 0 0) = false ∧ legalAction s (.readByte .dst 7) = true ∧
    legalAction s (.readByte .dst 8) = false ∧ legalAction s .reset = true := by decide

theorem witness_IdleStepChangesNothing : (image 2 1 [1, 2] []).host = [] := rfl

theorem witness_IssueForgetsTheEarlierOutcome :
    (asked (.writeReg 0 0x21000000) (image 2 1 [1, 2] [])).host = .writeReg 0 0x21000000#32 :: [] := rfl

/-- Errors with and without information. -/
theorem witness_ErrorEntryFrame :
    (∃ t, exec (.encI4Other .rgba 16) State.reset = .next t ∧ stateField t.status = 2) ∧
    (∃ t, exec (.decI8 false .s4b) (image 2 1 [1] []) = .next t ∧ stateField t.status = 2) :=
  ⟨⟨_, rfl, by decide⟩, ⟨_, rfl, by decide⟩⟩

theorem witness_OperationsNeverWriteTheirInputs : ∃ t, exec .encI8G8 (source [1, 2]) = .next t := ⟨_, rfl⟩

theorem witness_ResultRegisterKeptOtherwise :
    (∃ t, exec .encI8G8 (source [1, 2]) = .next t ∧ returnsResult .encI8G8 = false) ∧
    (∃ t, exec (.tlutLookup .s4b) (source []) = .next t ∧ stateField t.status = 2) :=
  ⟨⟨_, rfl, rfl⟩, ⟨_, rfl, by decide⟩⟩

theorem witness_OutputLengthCountsTheOutput :
    (∃ t, exec .metaI4 State.reset = .next t ∧ t.status = 1#32 ∧ returnsResult .metaI4 = true) ∧
    (∃ t, exec .encI8G4 (source [0xA5]) = .next t ∧ t.status = 1#32 ∧ returnsResult .encI8G4 = false ∧
      outputLength .encI8G4 (source [0xA5]) = 2) ∧
    (∃ t, exec (.decCI4 false .s4b) State.reset = .next t ∧ stateField t.status = 2) :=
  ⟨⟨_, rfl, by decide, rfl⟩, ⟨_, rfl, by decide, rfl, by decide⟩, ⟨_, rfl, by decide⟩⟩

/-- Two states that differ in everything an operation may not read. -/
theorem witness_ResultsDependOnInputsOnly :
    let s := image 1 1 [9] []
    let u := { s with cmd := 5, res := 6, status := 1, errInfo := 7, dstLen := 8, freeIdx := 40, host := [.reset],
                      src := (Memory.unwritten 0).store 0 [9, 4], dst := (Memory.unwritten 0).store 0 [3] }
    SameInputs s u ∧ exec (.decI8 false .s4b) s = .next (after (.decI8 false .s4b) s) ∧
      exec (.decI8 false .s4b) u = .next (after (.decI8 false .s4b) u) ∧
      (after (.decI8 false .s4b) s).status = 1#32 ∧ 3 < (after (.decI8 false .s4b) s).dstLen.toNat ∧
      exec .luma s = .next (after .luma s) ∧ exec .luma u = .next (after .luma u) ∧
      (after .luma s).status = 1#32 ∧ returnsResult .luma = true := by
  refine ⟨⟨rfl, rfl, rfl, rfl, rfl, rfl, by decide, by decide⟩, rfl, rfl, by decide, by decide, rfl, rfl,
    by decide, rfl⟩

theorem witness_TlutDecodeResult :
    (image 0 0 [] (palette.take 31)).palLen.toNat < 2 * entries Config.default .s4b ∧
    2 * entries Config.default .s4b ≤ (image 0 0 [] palette).palLen.toNat ∧
    OutputFits (withDstCap 64 (image 0 0 [] palette)) (4 * entries Config.default .s4b) := by decide

theorem witness_TlutLookupResult :
    (image 0 0 [] (palette.take 31)).palLen.toNat < 2 * entries Config.default .s4b ∧
    2 * entries Config.default .s4b ≤ (withArg 0x10F (image 0 0 [] palette)).palLen.toNat ∧
    (withArg 0x10F (image 0 0 [] palette)).arg.toNat % 256 < entries Config.default .s4b ∧
    entries Config.default .s4b ≤ (withArg 0x10 (image 0 0 [] palette)).arg.toNat % 256 := by decide

/-- R170, R173: the layout is stated with `PACK_LINEAR`, and without it in an even width or one row; every pixel of
three lies in two bytes, the third not in one. -/
theorem witness_DecodesNibbles :
    let s := withDstCap 12 (image 3 1 [0xA5, 0x3C] [])
    let u := withConfig { Config.default with packLinear := false } s
    OutputFits s (4 * npix s) ∧ LayoutStated s ∧ LayoutStated u ∧ LayoutStated (image 3 2 [] []) ∧
    LayoutStated (withConfig u.config (image 2 2 [] [])) ∧ ¬ LayoutStated (withConfig u.config (image 3 2 [] [])) ∧
    needBytes .i4 (npix s) ≤ s.srcLen.toNat ∧ (image 3 1 [0xA5] []).srcLen.toNat < needBytes .i4 3 ∧
    (∀ q, q < npix s → s.position q / 2 < s.srcLen.toNat) ∧
    (∀ q, q < npix u → u.position q / 2 < u.srcLen.toNat) ∧
    (image 3 1 [0xA5] []).srcLen.toNat ≤ (image 3 1 [0xA5] []).position 2 / 2 := by decide

/-- R166, R167, R170 to R174: three pixels of each format with exactly the bytes they need, with one byte less, in an
output buffer that just holds them. No pixel needs no byte. -/
theorem witness_DecodesPlainly :
    (OutputFits (withDstCap 12 (image 3 1 [1, 2] [])) (4 * npix (image 3 1 [1, 2] []))) ∧
    (∀ x ∈ [(ImageFormat.rgba32, 12), (.rgba16, 6), (.ia16, 6), (.ia8, 3), (.i8, 3), (.ia4, 2), (.i4, 2)],
      needBytes x.1 (npix (image 3 1 [] [])) = (image 3 1 (List.replicate x.2 7) []).srcLen.toNat ∧
      (image 3 1 (List.replicate (x.2 - 1) 7) []).srcLen.toNat < needBytes x.1 (npix (image 3 1 [] []))) ∧
    needBytes .rgba32 (npix (image 0 5 [] [])) ≤ (image 0 5 [] []).srcLen.toNat := by decide

/-- R168: a short palette; every pixel present with an index below the entry count; a missing second byte; and, with 15
entries in S16B, the index 15. -/
theorem witness_DecodeCI4Result :
    let s := withDstCap 12 (image 3 1 [0x1F, 0xF0] palette)
    let u := withConfig { Config.default with nS16B := 15 } s
    (image 3 1 [0x1F, 0xF0] (palette.take 31)).palLen.toNat < 2 * entries Config.default .s4b ∧
    2 * entries s.config .s4b ≤ s.palLen.toNat ∧ OutputFits s (4 * npix s) ∧ 16 ≤ entries s.config .s4b ∧
    LayoutStated s ∧
    needBytes .ci4 (npix s) ≤ s.srcLen.toNat ∧
    (∀ q, q < npix s → nibblePresent s q ∧ nibbleIndex s q < entries s.config .s4b) ∧
    (image 3 1 [0x1F] palette).srcLen.toNat < needBytes .ci4 3 ∧
    (∀ k, k < 2 → nibblePresent (image 3 1 [0x1F] palette) k ∧ nibbleIndex (image 3 1 [0x1F] palette) k < 16) ∧
    ¬ nibblePresent (image 3 1 [0x1F] palette) 2 ∧
    2 * entries u.config .s16b ≤ u.palLen.toNat ∧ OutputFits u (4 * npix u) ∧ 1 < npix u ∧
    (∀ k, k < 1 → nibblePresent u k ∧ nibbleIndex u k < entries u.config .s16b) ∧
    nibblePresent u 1 ∧ entries u.config .s16b ≤ nibbleIndex u 1 := by decide

/-- R169: the index 15 of 16 entries, the index 16, a missing byte. -/
theorem witness_DecodeCI8Result :
    let s := withDstCap 8 (image 2 1 [0x00, 0x0F] palette)
    let u := image 2 1 [0x00, 0x10] palette
    let v := image 2 1 [0x00] palette
    2 * entries s.config .s4b ≤ s.palLen.toNat ∧ OutputFits s (4 * npix s) ∧
    (∀ q, q < npix s → q < s.srcLen.toNat ∧ srcNumber s q < entries s.config .s4b) ∧
    (∀ k, k < 1 → k < u.srcLen.toNat ∧ srcNumber u k < entries u.config .s4b) ∧ 1 < u.srcLen.toNat ∧
    entries u.config .s4b ≤ srcNumber u 1 ∧
    (∀ k, k < 1 → k < v.srcLen.toNat ∧ srcNumber v k < entries v.config .s4b) ∧ ¬ 1 < v.srcLen.toNat := by decide

/-- R169 with 256 entries, present and missing pixels. -/
theorem witness_DecodeCI8Result_full :
    let s := { image 2 1 [0x00, 0xFF] [] with palLen := 512#32 }
    2 * entries s.config .s8b ≤ s.palLen.toNat ∧ 256 ≤ entries s.config .s8b ∧ OutputFits s (4 * npix s) ∧
    needBytes .ci8 (npix s) ≤ s.srcLen.toNat ∧ (image 2 1 [0x00] []).srcLen.toNat < needBytes .ci8 2 := by decide

theorem witness_MissingPaletteComesFirst :
    decode 0x2500E000#32 = .ok (.decCI4 true .s32b) ∧ decode 0x25006000#32 = .ok (.decCI4 false .s32b) ∧
    decodedFormat (.decCI4 false .s32b) = some .ci4 ∧ (0x25006000#32).toNat / 2 ^ 15 % 2 = 0 ∧
    decode 0x26000000#32 = .ok (.decCI8 false .s4b) ∧ decodedFormat (.decCI8 false .s4b) = some .ci8 ∧
    (0x26000000#32).toNat / 2 ^ 15 % 2 = 0 := by decide

/-- R267: two pixels into 7 bytes, with both bytes and with the second missing. -/
theorem witness_DecodeBeyondCapacityOrder :
    let s := withDstCap 7 (image 2 1 [1, 2] [])
    decodedFormat (.decI8 false .s4b) = some .i8 ∧ s.config.dstCap = some 7 ∧ 7 < 4 * npix s ∧
    (∀ q, q ≤ 7 / 4 → PixelPresent .i8 s q) ∧ ¬ PixelPresent .i8 (withDstCap 7 (image 2 1 [1] [])) 1 ∧
    (∀ q, q ≤ 7 / 4 → PixelPresent .i4 s q) ∧ ¬ PixelPresent .rgba32 s 0 := by decide

/-- R267: three pixels into 7 bytes: all good up to pixel 1 and a bad index or a missing byte at pixel 2; a bad index or
a missing byte at pixel 1, where the output stops. -/
theorem witness_IndexedDecodeBeyondCapacityOrder :
    let s := withDstCap 7 (image 3 1 [0, 15, 16] palette)
    let u := withDstCap 7 (image 3 1 [0, 16, 0] palette)
    let v := withDstCap 7 (image 3 1 [0] palette)
    s.config.dstCap = some 7 ∧ 7 < 4 * npix s ∧ 2 * entries s.config .s4b ≤ s.palLen.toNat ∧
    (∀ q, q ≤ 7 / 4 → bytePresent s q ∧ srcNumber s q < entries s.config .s4b) ∧
    (∀ k, k < 1 → bytePresent u k ∧ srcNumber u k < entries u.config .s4b) ∧ bytePresent u 1 ∧
    entries u.config .s4b ≤ srcNumber u 1 ∧
    (∀ k, k < 1 → bytePresent v k ∧ srcNumber v k < entries v.config .s4b) ∧ ¬ bytePresent v 1 ∧
    (∀ q, q ≤ 7 / 4 → nibblePresent s q ∧ nibbleIndex s q < entries s.config .s4b) := by decide

/-- R267 for 4-bit indices: the second byte missing at pixel 2, where 11 bytes stop the output; the index 15 of 15
entries at pixel 1, where 7 bytes stop it. -/
theorem witness_IndexedDecodeBeyondCapacityOrder_CI4 :
    let s := withDstCap 11 (image 3 1 [0x01] palette)
    let u := withConfig { Config.default with nS16B := 15, dstCap := some 7 } (image 2 1 [0x0F] palette)
    s.config.dstCap = some 11 ∧ 11 < 4 * npix s ∧ 2 * entries s.config .s4b ≤ s.palLen.toNat ∧ 2 ≤ 11 / 4 ∧
    (∀ k, k < 2 → nibblePresent s k ∧ nibbleIndex s k < entries s.config .s4b) ∧ ¬ nibblePresent s 2 ∧
    u.config.dstCap = some 7 ∧ 7 < 4 * npix u ∧ 2 * entries u.config .s16b ≤ u.palLen.toNat ∧ 1 ≤ 7 / 4 ∧
    (∀ k, k < 1 → nibblePresent u k ∧ nibbleIndex u k < entries u.config .s16b) ∧ nibblePresent u 1 ∧
    entries u.config .s16b ≤ nibbleIndex u 1 := by decide

theorem witness_PlainDecodeIgnoresPaletteAndShape :
    let s := image 2 3 [1, 2, 3, 4, 5, 6] []
    let u := { s with width := 6, height := 1, palLen := 9, pal := Memory.unwritten 7 }
    decodedFormat (.decI8 false .s4b) = some .i8 ∧ decodedFormat (.decI8 true .s16b) = some .i8 ∧
    u = { s with width := u.width, height := u.height, palLen := u.palLen, pal := u.pal } ∧ npix u = npix s ∧
    (bitsPerPixel .i8 = 4 → LayoutStated s ∧ LayoutStated u) ∧ LayoutStated s ∧ LayoutStated u ∧
    exec (.decI8 false .s4b) s = .next (after (.decI8 false .s4b) s) := by
  refine ⟨rfl, rfl, rfl, by decide, by decide, by decide, by decide, rfl⟩

theorem witness_GrayStreams :
    ∀ x ∈ [(Instr.decI4 false .s4b, ImageFormat.i4), (.decI8 false .s4b, .i8), (.decIA4 false .s4b, .ia4),
        (.decIA8 false .s4b, .ia8), (.decIA16 false .s4b, .ia16)],
      decodedFormat x.1 = some x.2 ∧ (after x.1 (image 1 1 [0xFF, 0xFF] [])).status = 1#32 ∧
      0 < npix (image 1 1 [0xFF, 0xFF] []) := by decide

theorem witness_DecodeOutputLength :
    (∃ t, exec (.decI8 false .s4b) (image 2 1 [1, 2] []) = .next t ∧ t.status = 1#32 ∧
      4 * npix (image 2 1 [1, 2] []) < 2 ^ 32 ∧ 7 < 4 * npix (image 2 1 [1, 2] [])) ∧
    (∃ t, exec (.decI8 false .s4b) (image 2 1 [1] []) = .next t ∧ t.status ≠ 1#32) :=
  ⟨⟨_, rfl, by decide, by decide, by decide⟩, ⟨_, rfl, by decide⟩⟩

theorem witness_VerbatimEncodes :
    OutputFits (withDstCap 3 (source [1, 2, 3])) (source [1, 2, 3]).srcLen.toNat ∧
    OutputFits (withDstCap 0 (source [])) (source []).srcLen.toNat := by decide

/-- The group arms: an output that just fits, with and without a partial group, each reading of `ENC.I8.G4`. -/
theorem witness_EncodesGroups :
    OutputFits (withDstCap 2 (source [1, 2, 3, 4, 5])) (5 / 4 * 2) ∧ OutputFits (withDstCap 0 (source [1])) (1 / 2 * 1) ∧
    OutputFits (withDstCap 2 (source [1])) (1 / 1 * 2) ∧ Config.default.encI8G4Mode = .expandShift ∧
    { Config.default with encI8G4Mode := .expandReplicate }.encI8G4Mode = .expandReplicate ∧
    { Config.default with encI8G4Mode := .fold }.encI8G4Mode = .fold := by decide

theorem witness_OtherShapesAreRefused : accepted .i4 .g 31 = false ∧ accepted .ia4 .g 8 = false ∧
    accepted .rgba32 .idx 0 = false ∧ accepted .i4 .g 8 = true := by decide

/-- R133: both values of the parameter. -/
theorem witness_LumaResult : (operand 0xFF000000).config.lumaRule = .exactIntegers := rfl

theorem witness_OutputBeyondCapacityIsIo :
    let s := withDstCap 3 (image 1 1 [0x0F, 0, 0, 0, 0, 0, 0, 0] palette)
    2 * entries s.config .s4b ≤ s.palLen.toNat ∧ ¬ OutputFits s (4 * entries s.config .s4b) ∧
    ¬ OutputFits s s.srcLen.toNat ∧ ¬ OutputFits (withDstCap 0 s) (s.srcLen.toNat / 8 * 1) ∧
    s.config.encI8G4Mode ≠ .fold ∧ ¬ OutputFits s (s.srcLen.toNat * 2) ∧
    (withConfig { s.config with encI8G4Mode := .fold } s).config.encI8G4Mode = .fold ∧
    ¬ OutputFits s (s.srcLen.toNat / 2) ∧ ¬ OutputFits s (4 * npix s) ∧
    (∀ q, q < npix s → nibblePresent s q ∧ nibbleIndex s q < entries s.config .s4b) ∧
    (∀ q, q < npix s → q < s.srcLen.toNat ∧ srcNumber s q < entries s.config .s4b) := by decide

/-! Round trips: the native image, the outcome of its decode, and an encode source that holds what it decoded to. -/

/-- The encode source that holds the stream of an outcome. -/
def streamOf (t : State) (n : Nat) : State := source ((List.range (4 * n)).map (t.byteAt .dst))

def grayOf (t : State) (n : Nat) : State := source ((List.range n).map (fun q => t.byteAt .dst (4 * q)))

def grayAlphaOf (t : State) (n : Nat) : State :=
  source ((List.range n).flatMap (fun q => [t.byteAt .dst (4 * q), t.byteAt .dst (4 * q + 3)]))

theorem witness_ColourRoundTrips :
    let s := image 1 1 [1, 2, 3, 4] []
    let u := image 2 1 [0xF8, 0x01, 0xFF, 0xFE] []
    let v := image 2 1 [0x00, 0xC8] []
    DecodedExactly (.decRGBA32 false .s4b) .rgba32 s (after (.decRGBA32 false .s4b) s) ∧
    HoldsStream (streamOf (after (.decRGBA32 false .s4b) s) 1) (after (.decRGBA32 false .s4b) s) (npix s) ∧
    OutputFits (withDstCap 4 s) s.srcLen.toNat ∧
    DecodedExactly (.decRGBA16 false .s4b) .rgba16 u (after (.decRGBA16 false .s4b) u) ∧
    HoldsStream (streamOf (after (.decRGBA16 false .s4b) u) 2) (after (.decRGBA16 false .s4b) u) (npix u) ∧
    DecodedExactly (.decI8 false .s4b) .i8 v (after (.decI8 false .s4b) v) ∧
    HoldsStream (streamOf (after (.decI8 false .s4b) v) 2) (after (.decI8 false .s4b) v) (npix v) ∧
    (streamOf (after (.decI8 false .s4b) v) 2).config.lumaRule = .exactIntegers := by
  refine ⟨⟨rfl, by decide, by decide⟩, ⟨by decide, by decide⟩, by decide, ⟨rfl, by decide, by decide⟩,
    ⟨by decide, by decide⟩, ⟨rfl, by decide, by decide⟩, ⟨by decide, by decide⟩, by decide⟩

theorem witness_GrayRoundTrips :
    let s := image 2 1 [0xA5, 0x3C] []
    let a := image 2 1 [0xA5] []
    let b := image 1 1 [0x80, 0x40] []
    DecodedExactly (.decI8 false .s4b) .i8 s (after (.decI8 false .s4b) s) ∧
    HoldsGray (grayOf (after (.decI8 false .s4b) s) 2) (after (.decI8 false .s4b) s) (npix s) ∧
    DecodedExactly (.decI4 false .s4b) .i4 a (after (.decI4 false .s4b) a) ∧ npix a % 2 = 0 ∧
    LayoutStated a ∧
    HoldsGray (grayOf (after (.decI4 false .s4b) a) 2) (after (.decI4 false .s4b) a) (npix a) ∧
    DecodedExactly (.decIA16 false .s4b) .ia16 b (after (.decIA16 false .s4b) b) ∧
    HoldsGrayAlpha (grayAlphaOf (after (.decIA16 false .s4b) b) 1) (after (.decIA16 false .s4b) b) (npix b) ∧
    DecodedExactly (.decIA8 false .s4b) .ia8 s (after (.decIA8 false .s4b) s) ∧
    HoldsGrayAlpha (grayAlphaOf (after (.decIA8 false .s4b) s) 2) (after (.decIA8 false .s4b) s) (npix s) ∧
    DecodedExactly (.decIA4 false .s4b) .ia4 a (after (.decIA4 false .s4b) a) ∧
    HoldsGrayAlpha (grayAlphaOf (after (.decIA4 false .s4b) a) 2) (after (.decIA4 false .s4b) a) (npix a) ∧
    OutputFits s s.srcLen.toNat := by
  refine ⟨⟨rfl, by decide, by decide⟩, ⟨by decide, by decide⟩, ⟨rfl, by decide, by decide⟩, by decide,
    by decide, ⟨by decide, by decide⟩, ⟨rfl, by decide, by decide⟩, ⟨by decide, by decide⟩, ⟨rfl, by decide, by decide⟩,
    ⟨by decide, by decide⟩, ⟨rfl, by decide, by decide⟩, ⟨by decide, by decide⟩, by decide⟩

/-- V-R3 and an image whose nibbles agree, under each value of the parameter. -/
theorem witness_I4StreamRoundTrip :
    let s := image 2 1 [0xA5] []
    let u := streamOf (after (.decI4 false .s4b) s) 2
    let v := withConfig { Config.default with i4RgbaDoubleRead := false } u
    DecodedExactly (.decI4 false .s4b) .i4 s (after (.decI4 false .s4b) s) ∧ npix s % 2 = 0 ∧
    LayoutStated s ∧ u.config.lumaRule = .exactIntegers ∧ HoldsStream u (after (.decI4 false .s4b) s) (npix s) ∧ OutputFits u s.srcLen.toNat ∧
    u.config.i4RgbaDoubleRead = true ∧ v.config.i4RgbaDoubleRead = false ∧
    HoldsStream v (after (.decI4 false .s4b) s) (npix s) ∧
    srcNumber (image 2 1 [0x33] []) 0 / 16 = srcNumber (image 2 1 [0x33] []) 0 % 16 := by
  refine ⟨⟨rfl, by decide, by decide⟩, by decide, by decide, by decide, ⟨by decide, by decide⟩, by decide, by decide,
    by decide, ⟨by decide, by decide⟩, by decide⟩

/-- V-R8, and the packed bytes. -/
theorem witness_IndexRoundTrips :
    let s := image 2 1 [0xAB] []
    let u := source [0x0A, 0x0B]
    npix s % 2 = 0 ∧ s.srcLen.toNat = needBytes .ci4 (npix s) ∧ u.srcLen.toNat = npix s ∧
    (∀ q, q < npix s → srcNumber u q = nibbleNumber s q) ∧ OutputFits u s.srcLen.toNat ∧
    (source [0xAB]).srcLen = s.srcLen ∧
    (∀ k, k < s.srcLen.toNat → (source [0xAB]).byteAt .src k = s.byteAt .src k) := by decide

end Sys2Proof.Tests
end

/-! # An operation runs to its end, and its outcome depends on its inputs only (00_scope R14, 10_state R29, R33)

Both statements rest on one fact about the 51 arms of `exec`: on two states with the same inputs an operation finishes,
as `finishOutput` or `finishResult`, with one and the same result. -/

namespace Sys2Proof.Machine

/-! ## Views that agree on their valid bytes -/

/-- Two views of the same length with the same valid bytes. -/
structure View.Agrees (v w : View) : Prop where
  len : w.len = v.len
  byte : ∀ k, k < v.len → w.byte k = v.byte k

/-- `f` looks at the first `n` bytes only. -/
def ReadsBelow {α : Type} (n : Nat) (f : (Nat → Byte) → α) : Prop :=
  ∀ c d, (∀ t, t < n → d t = c t) → f d = f c

/-- A read of `n` bytes by a function that looks at no more: past the valid bytes a window may differ, what is read
does not. -/
theorem View.Agrees.window_map {α : Type} {v w : View} (h : v.Agrees w) {n : Nat} {f : (Nat → Byte) → α}
    (hf : ReadsBelow n f) (off : Nat) : (w.window off n).map f = (v.window off n).map f := by
  by_cases hin : off + n ≤ v.len
  · rw [window_ok hin, window_ok (h.len ▸ hin)]
    exact congrArg Except.ok (hf _ _ fun t ht => h.byte (off + t) (by omega))
  · rw [window_short (v := v) (by omega), window_short (by rw [h.len]; omega)]

theorem View.Agrees.read8 {v w : View} (h : v.Agrees w) (off : Nat) : w.read8 off = v.read8 off :=
  h.window_map (fun _ _ hcd => hcd 0 (by decide)) off

theorem View.Agrees.read16 {v w : View} (h : v.Agrees w) (off : Nat) : w.read16 off = v.read16 off :=
  h.window_map (fun _ _ hcd => by simp [hcd]) off

theorem View.Agrees.read32 {v w : View} (h : v.Agrees w) (off : Nat) : w.read32 off = v.read32 off :=
  h.window_map (fun _ _ hcd => by simp [hcd]) off

theorem View.Agrees.nibble {v w : View} (h : v.Agrees w) (highFirst : Bool) (p : Nat) :
    w.nibble highFirst p = v.nibble highFirst p := by
  rw [View.nibble, View.nibble, h.read8]

theorem View.Agrees.emitVerbatim {v w : View} (h : v.Agrees w) (cap : Option Nat) :
    emitVerbatim cap w = emitVerbatim cap v := by
  simp only [Machine.emitVerbatim, h.len, h.read8]

theorem View.Agrees.groupBytes {v w : View} (h : v.Agrees w) (cap : Option Nat) {k : Nat}
    {out : (Nat → Byte) → List Byte} (hout : ReadsBelow k out) : groupBytes cap k out w = groupBytes cap k out v := by
  simp only [Machine.groupBytes, h.len, h.window_map hout]

/-- The table of `n` entries is read only where `2n` bytes are valid (R151). -/
theorem View.Agrees.tlutDecode {v w : View} (h : v.Agrees w) (n : Nat) : tlutDecode n w = tlutDecode n v := by
  by_cases hshort : v.len < 2 * n
  · simp [Machine.tlutDecode, h.len, hshort]
  · have hentry : (List.range n).map (paletteEntry w) = (List.range n).map (paletteEntry v) :=
      List.map_congr_left fun i hi => by
        have hi : i < n := List.mem_range.mp hi
        rw [paletteEntry, paletteEntry, h.byte _ (by omega), h.byte _ (by omega)]
    simp [Machine.tlutDecode, h.len, hshort, hentry]

/-! ## States with the same inputs -/

theorem SameInputs.refl (s : State) : SameInputs s s :=
  ⟨rfl, rfl, rfl, rfl, rfl, rfl, fun _ _ => rfl, fun _ _ => rfl⟩

theorem SameInputs.srcView {s u : State} (h : SameInputs s u) : s.srcView.Agrees u.srcView :=
  ⟨congrArg BitVec.toNat h.srcLen, h.src⟩

theorem SameInputs.palView {s u : State} (h : SameInputs s u) : s.palView.Agrees u.palView :=
  ⟨congrArg BitVec.toNat h.palLen, h.pal⟩

theorem SameInputs.pixelCount {s u : State} (h : SameInputs s u) : u.pixelCount = s.pixelCount := by
  rw [State.pixelCount, State.pixelCount, h.width, h.height]

theorem SameInputs.position {s u : State} (h : SameInputs s u) (p : Nat) : u.position p = s.position p := by
  rw [State.position, State.position, h.config, h.width]

/-! ## One result on both states -/

/-- On both states the operation ends with the same bytes, value or error, according to whether it returns a result. -/
def FinishesAlike (i : Instr) (s u : State) : Prop :=
  (returnsResult i = false ∧ ∃ r, exec i s = finishOutput r s ∧ exec i u = finishOutput r u) ∨
    (returnsResult i = true ∧ ∃ r, exec i s = finishResult r s ∧ exec i u = finishResult r u)

section
variable {i : Instr} {s u : State}

theorem output_alike {r : State → Except OpError (List Byte)} (hi : returnsResult i = false)
    (hexec : ∀ x, exec i x = finishOutput (r x) x) (hr : r u = r s) : FinishesAlike i s u :=
  .inl ⟨hi, r s, hexec s, hr ▸ hexec u⟩

theorem decodePlain_alike {pixel : State → View → Nat → Except OpError Rgba} (hi : returnsResult i = false)
    (hexec : ∀ x, exec i x = decodePlain (pixel x) x) (h : SameInputs s u)
    (hpixel : ∀ p, pixel u u.srcView p = pixel s s.srcView p) : FinishesAlike i s u :=
  output_alike hi hexec (by rw [h.config, h.pixelCount, funext hpixel])

/-- The palette bit is the word's, and the palette is decoded alike before any pixel is read. -/
theorem decodeIndexed_alike {pixel : State → List Rgba → View → Nat → Except OpError Rgba} {p : Bool}
    {psz : PaletteSize} (hi : returnsResult i = false) (hexec : ∀ x, exec i x = decodeIndexed (pixel x) p psz x)
    (h : SameInputs s u) (hpixel : ∀ tbl k, pixel u tbl u.srcView k = pixel s tbl s.srcView k) :
    FinishesAlike i s u := by
  cases p with
  | false => exact .inl ⟨hi, .error .missingPalette, hexec s, hexec u⟩
  | true =>
    cases htbl : tlutDecode (entries s.config psz) s.palView with
    | error e =>
      exact .inl ⟨hi, .error e, by simp [hexec, decodeIndexed, htbl],
        by simp [hexec, decodeIndexed, h.config, h.palView.tlutDecode, htbl]⟩
    | ok tbl =>
      exact .inl ⟨hi, decodePixels s.config.dstCap s.pixelCount (pixel s tbl s.srcView),
        by simp [hexec, decodeIndexed, htbl],
        by simp [hexec, decodeIndexed, h.config, h.palView.tlutDecode, htbl, h.pixelCount, funext (hpixel tbl)]⟩

theorem tlutDecode_alike (psz : PaletteSize) (h : SameInputs s u) : FinishesAlike (.tlutDecode psz) s u := by
  cases htbl : tlutDecode (entries s.config psz) s.palView with
  | error e =>
    exact .inl ⟨rfl, .error e, by simp [exec, execTlutDecode, htbl],
      by simp [exec, execTlutDecode, h.config, h.palView.tlutDecode, htbl]⟩
  | ok tbl =>
    exact .inl ⟨rfl, emitVerbatim s.config.dstCap (View.ofList (tableBytes tbl)),
      by simp [exec, execTlutDecode, htbl], by simp [exec, execTlutDecode, h.config, h.palView.tlutDecode, htbl]⟩

theorem tlutLookup_alike (psz : PaletteSize) (h : SameInputs s u) : FinishesAlike (.tlutLookup psz) s u := by
  cases htbl : tlutDecode (entries s.config psz) s.palView with
  | error e =>
    exact .inr ⟨rfl, .error e, by simp [exec, execTlutLookup, htbl],
      by simp [exec, execTlutLookup, h.config, h.palView.tlutDecode, htbl]⟩
  | ok tbl =>
    exact .inr ⟨rfl, (tlutLookup tbl (indexOfWord s.arg)).map quadToWord,
      by simp [exec, execTlutLookup, htbl],
      by simp [exec, execTlutLookup, h.config, h.palView.tlutDecode, htbl, h.arg]⟩

theorem encodeVerbatim_alike (hi : returnsResult i = false) (hexec : ∀ x, exec i x = encodeVerbatim x)
    (h : SameInputs s u) : FinishesAlike i s u :=
  output_alike hi hexec (by rw [h.config, h.srcView.emitVerbatim])

/-- Stride and group function of an arm depend on the configuration alone, and the function looks at no byte
past its group. -/
theorem encodeGroups_alike (k : Config → Nat) (out : Config → (Nat → Byte) → List Byte)
    (hi : returnsResult i = false) (hexec : ∀ x, exec i x = encodeGroups (k x.config) (out x.config) x)
    (h : SameInputs s u) (hout : ∀ cfg, ReadsBelow (k cfg) (out cfg)) : FinishesAlike i s u :=
  output_alike hi hexec (by rw [h.config, h.srcView.groupBytes _ (hout _)])

theorem encodeRefused_alike {ctype : ColorType} {depth : BitVec 5} (hi : returnsResult i = false)
    (hexec : ∀ x, exec i x = encodeRefused ctype depth x) : FinishesAlike i s u :=
  output_alike hi hexec rfl

theorem value_alike (value : State → Word) (hi : returnsResult i = true)
    (hexec : ∀ x, exec i x = finishResult (.ok (value x)) x) (hvalue : value u = value s) : FinishesAlike i s u :=
  .inr ⟨hi, .ok (value s), hexec s, hvalue ▸ hexec u⟩

end

/-- The fold reads two bytes and the two expansions one, as their strides say (R210). -/
theorem outI8G4_readsBelow (mode : I8G4Mode) : ReadsBelow (strideI8G4 mode) (outI8G4 mode) := by
  intro c d hcd
  cases mode with
  | expandShift => simp [outI8G4, hcd 0 (by decide)]
  | expandReplicate => simp [outI8G4, hcd 0 (by decide)]
  | fold => simp [outI8G4, hcd 0 (by decide), hcd 1 (by decide)]

/-- Every arm of `exec` finishes alike on states with the same inputs. -/
theorem exec_alike (i : Instr) {s u : State} (h : SameInputs s u) : FinishesAlike i s u := by
  cases i
  case pack16 => exact value_alike (fun x => (pack16 (quadOfWord x.arg)).setWidth 32) rfl (fun _ => rfl) (by rw [h.arg])
  case unpack16 =>
    exact value_alike (fun x => quadToWord (unpack16 (halfOfWord x.arg))) rfl (fun _ => rfl) (by rw [h.arg])
  case luma =>
    exact value_alike (fun x => (luma x.config.lumaRule (quadOfWord x.arg).r (quadOfWord x.arg).g
      (quadOfWord x.arg).b).setWidth 32) rfl (fun _ => rfl) (by rw [h.arg, h.config])
  case tlutDecode psz => exact tlutDecode_alike psz h
  case tlutLookup psz => exact tlutLookup_alike psz h
  case decI4 =>
    exact decodePlain_alike (pixel := fun x v p => pixelI4 v (x.position p)) rfl (fun _ => rfl) h
      (fun p => by simp only [pixelI4, h.position, h.srcView.nibble])
  case decIA4 =>
    exact decodePlain_alike (pixel := fun x v p => pixelIA4 x.config.ia4HighFirst v (x.position p)) rfl (fun _ => rfl) h
      (fun p => by simp only [pixelIA4, h.config, h.position, h.srcView.nibble])
  case decI8 =>
    exact decodePlain_alike (pixel := fun _ => pixelI8) rfl (fun _ => rfl) h
      (fun p => by simp only [pixelI8, h.srcView.read8])
  case decIA8 =>
    exact decodePlain_alike (pixel := fun _ => pixelIA8) rfl (fun _ => rfl) h
      (fun p => by simp only [pixelIA8, h.srcView.read8])
  case decIA16 =>
    exact decodePlain_alike (pixel := fun _ => pixelIA16) rfl (fun _ => rfl) h
      (fun p => h.srcView.window_map (fun _ _ hcd => by simp [hcd]) (2 * p))
  case decRGBA16 =>
    exact decodePlain_alike (pixel := fun _ => pixelRGBA16) rfl (fun _ => rfl) h
      (fun p => by simp only [pixelRGBA16, h.srcView.read16])
  case decRGBA32 =>
    exact decodePlain_alike (pixel := fun _ => pixelRGBA32) rfl (fun _ => rfl) h
      (fun p => by simp only [pixelRGBA32, h.srcView.read32])
  case decCI4 =>
    exact decodeIndexed_alike (pixel := fun x tbl v k => pixelCI4 tbl v (x.position k)) rfl (fun _ => rfl) h
      (fun tbl k => by simp only [pixelCI4, h.position, h.srcView.nibble])
  case decCI8 =>
    exact decodeIndexed_alike (pixel := fun _ => pixelCI8) rfl (fun _ => rfl) h
      (fun tbl k => by simp only [pixelCI8, h.srcView.read8])
  case encRGBA32RGBA8 => exact encodeVerbatim_alike rfl (fun _ => rfl) h
  case encI4G4 => exact encodeVerbatim_alike rfl (fun _ => rfl) h
  case encI8G8 => exact encodeVerbatim_alike rfl (fun _ => rfl) h
  case encIA16GA8 => exact encodeVerbatim_alike rfl (fun _ => rfl) h
  case encCI4IDX4 => exact encodeVerbatim_alike rfl (fun _ => rfl) h
  case encCI8IDX8 => exact encodeVerbatim_alike rfl (fun _ => rfl) h
  case encRGBA16RGBA8 =>
    exact encodeGroups_alike (fun _ => 4) (fun _ => outRGBA16RGBA8) rfl (fun _ => rfl) h
      (fun _ _ _ hcd => by simp [outRGBA16RGBA8, hcd])
  case encI4G8 =>
    exact encodeGroups_alike (fun _ => 2) (fun _ => outI4G8) rfl (fun _ => rfl) h
      (fun _ _ _ hcd => by simp [outI4G8, hcd])
  case encI4GA8 =>
    exact encodeGroups_alike (fun _ => 4) (fun _ => outI4GA8) rfl (fun _ => rfl) h
      (fun _ _ _ hcd => by simp [outI4GA8, hcd])
  case encI4RGB8 =>
    exact encodeGroups_alike (fun _ => 6) (fun cfg => outI4RGB8 cfg.lumaRule) rfl (fun _ => rfl) h
      (fun _ _ _ hcd => by simp [outI4RGB8, hcd])
  case encI4RGBA8 =>
    exact encodeGroups_alike (fun _ => 8) (fun cfg => outI4RGBA8 cfg.lumaRule cfg.i4RgbaDoubleRead) rfl (fun _ => rfl) h
      (fun _ _ _ hcd => by simp [outI4RGBA8, hcd])
  case encI8G4 =>
    exact encodeGroups_alike (fun cfg => strideI8G4 cfg.encI8G4Mode) (fun cfg => outI8G4 cfg.encI8G4Mode) rfl
      (fun _ => rfl) h (fun cfg => outI8G4_readsBelow cfg.encI8G4Mode)
  case encI8GA8 =>
    exact encodeGroups_alike (fun _ => 2) (fun _ => outI8GA8) rfl (fun _ => rfl) h
      (fun _ _ _ hcd => by simp [outI8GA8, hcd])
  case encI8RGB8 =>
    exact encodeGroups_alike (fun _ => 3) (fun cfg => outI8RGB8 cfg.lumaRule) rfl (fun _ => rfl) h
      (fun _ _ _ hcd => by simp [outI8RGB8, hcd])
  case encI8RGBA8 =>
    exact encodeGroups_alike (fun _ => 4) (fun cfg => outI8RGBA8 cfg.lumaRule) rfl (fun _ => rfl) h
      (fun _ _ _ hcd => by simp [outI8RGBA8, hcd])
  case encIA4GA8 =>
    exact encodeGroups_alike (fun _ => 4) (fun cfg => outIA4GA8 cfg.ia4HighFirst) rfl (fun _ => rfl) h
      (fun _ _ _ hcd => by simp [outIA4GA8, hcd])
  case encIA8GA8 =>
    exact encodeGroups_alike (fun _ => 2) (fun cfg => outIA8GA8 cfg.ia8EncMaskGray) rfl (fun _ => rfl) h
      (fun _ _ _ hcd => by simp [outIA8GA8, hcd])
  case encCI4IDX8 =>
    exact encodeGroups_alike (fun _ => 2) (fun _ => outCI4IDX8) rfl (fun _ => rfl) h
      (fun _ _ _ hcd => by simp [outCI4IDX8, hcd])
  case encCI8IDX4 =>
    exact encodeGroups_alike (fun _ => 2) (fun _ => outCI8IDX4) rfl (fun _ => rfl) h
      (fun _ _ _ hcd => by simp [outCI8IDX4, hcd])
  case encI4Other => exact encodeRefused_alike rfl (fun _ => rfl)
  case encI8Other => exact encodeRefused_alike rfl (fun _ => rfl)
  case encIA4Other => exact encodeRefused_alike rfl (fun _ => rfl)
  case encIA8Other => exact encodeRefused_alike rfl (fun _ => rfl)
  case encIA16Other => exact encodeRefused_alike rfl (fun _ => rfl)
  case encCI4Other => exact encodeRefused_alike rfl (fun _ => rfl)
  case encCI8Other => exact encodeRefused_alike rfl (fun _ => rfl)
  case encRGBA16Other => exact encodeRefused_alike rfl (fun _ => rfl)
  case encRGBA32Other => exact encodeRefused_alike rfl (fun _ => rfl)
  case metaI4 => exact value_alike (fun _ => metaResult false .rgba 8) rfl (fun _ => rfl) rfl
  case metaI8 => exact value_alike (fun _ => metaResult false .rgba 8) rfl (fun _ => rfl) rfl
  case metaIA4 => exact value_alike (fun _ => metaResult false .rgba 8) rfl (fun _ => rfl) rfl
  case metaIA8 => exact value_alike (fun _ => metaResult false .rgba 8) rfl (fun _ => rfl) rfl
  case metaIA16 => exact value_alike (fun _ => metaResult false .rgba 8) rfl (fun _ => rfl) rfl
  case metaCI4 => exact value_alike (fun _ => metaResult true .idx 8) rfl (fun _ => rfl) rfl
  case metaCI8 => exact value_alike (fun _ => metaResult true .idx 8) rfl (fun _ => rfl) rfl
  case metaRGBA16 => exact value_alike (fun _ => metaResult false .rgba 8) rfl (fun _ => rfl) rfl
  case metaRGBA32 => exact value_alike (fun _ => metaResult false .rgba 8) rfl (fun _ => rfl) rfl

/-! ## The two statements -/

/-- No operation stops the machine. -/
theorem exec_next (i : Instr) (s : State) : ∃ t, exec i s = .next t := by
  rcases exec_alike i (SameInputs.refl s) with ⟨_, r, hs, _⟩ | ⟨_, r, hs, _⟩ <;>
  · rw [hs]
    cases r <;> exact ⟨_, rfl⟩

/-- Settles O18: `exec` answers a next state, and each of the three endings writes `STATUS` and `ERRINFO` so. -/
theorem everyOperationEndsDoneOrErr : Obligations.EveryOperationEndsDoneOrErr := by
  intro i s
  obtain ⟨t, ht⟩ := exec_next i s
  refine ⟨t, ht, ?_⟩
  rcases exec_ending ht with ⟨bs, _, _, rfl⟩ | ⟨v, _, rfl⟩ | ⟨e, _, rfl⟩
  · exact .inl ⟨doneStatus_eq, rfl⟩
  · exact .inl ⟨doneStatus_eq, rfl⟩
  · exact .inr ⟨stateField_errStatus e, by simpa using code_ne_zero e, by simpa using code_ne_seven e⟩

theorem errStatus_ne_done (e : OpError) : errStatus e ≠ 1#32 := by
  intro h
  have hfield : stateField 1#32 = 2 := h ▸ stateField_errStatus e
  exact absurd hfield (by decide)

/-- The bytes `DST_LEN` counts are the output's, whatever DST held. -/
theorem byteAt_completeOutput (bs : List Byte) (s : State) {k : Nat} (hk : k < (lengthWord bs.length).toNat) :
    (completeOutput bs s).byteAt .dst k = bs.getD k 0 :=
  (completeOutput_done bs s).byteAt (Nat.lt_of_lt_of_le hk (lengthWord_le bs.length))

/-- Two states after an operation look the same: in the three registers, in the output `DST_LEN` counts and in the
result, where there is one (R33). -/
def SameOutcome (i : Instr) (t v : State) : Prop :=
  v.status = t.status ∧ v.errInfo = t.errInfo ∧ v.dstLen = t.dstLen ∧
    (t.status = 1#32 → ∀ k, k < t.dstLen.toNat → v.byteAt .dst k = t.byteAt .dst k) ∧
    (t.status = 1#32 → returnsResult i = true → v.res = t.res)

theorem completeOutput_sameOutcome {i : Instr} (hi : returnsResult i = false) (bs : List Byte) (s u : State) :
    SameOutcome i (completeOutput bs s) (completeOutput bs u) :=
  ⟨rfl, rfl, rfl, fun _ _ hk => (byteAt_completeOutput bs u hk).trans (byteAt_completeOutput bs s hk).symm,
    fun _ hres => by simp [hi] at hres⟩

theorem completeResult_sameOutcome (i : Instr) (w : Word) (s u : State) :
    SameOutcome i (completeResult w s) (completeResult w u) :=
  ⟨rfl, rfl, rfl, fun _ k hk => absurd hk (Nat.not_lt_zero k), fun _ _ => rfl⟩

theorem raiseError_sameOutcome (i : Instr) (e : OpError) (s u : State) :
    SameOutcome i (raiseError e s) (raiseError e u) :=
  ⟨rfl, rfl, rfl, fun hdone => absurd hdone (errStatus_ne_done e), fun hdone => absurd hdone (errStatus_ne_done e)⟩

/-- Settles O21: both runs finish with the same bytes, value or error, and what each of those leaves in the registers
and in the counted bytes of DST does not depend on the state. -/
theorem resultsDependOnInputsOnly : Obligations.ResultsDependOnInputsOnly := by
  intro i s u t v hsame ht hv
  rcases exec_alike i hsame with ⟨hi, r, hs, hu⟩ | ⟨_, r, hs, hu⟩
  · rcases finishOutput_next (hs ▸ ht) with ⟨bs, rfl, rfl⟩ | ⟨e, rfl, rfl⟩
    · cases hu.symm.trans hv
      exact completeOutput_sameOutcome hi bs s u
    · cases hu.symm.trans hv
      exact raiseError_sameOutcome i e s u
  · rcases finishResult_next (hs ▸ ht) with ⟨w, rfl, rfl⟩ | ⟨e, rfl, rfl⟩
    · cases hu.symm.trans hv
      exact completeResult_sameOutcome i w s u
    · cases hu.symm.trans hv
      exact raiseError_sameOutcome i e s u

end Sys2Proof.Machine

/-! # Every step keeps the invariant (10_state R23, R25, R26, R27)

Each of the updates a step is made of keeps `StateInv`: the start of an operation, its three endings, a reset and the
host's accesses. `ERRINFO` speaks of the word in `CMD` and the inversion lemma of `exec` of the operation's own word:
they are the same, since a command word is the encoding of what it decodes to. -/

namespace Sys2Proof

/-! ## A command word is the encoding of what it decodes to (R80 to R86, R100) -/

/-- A word is its fields, highest first (R80). -/
theorem fields_append (c : Word) :
    classField c ++ selField c ++ ctypeField c ++ depthField c ++ pField c ++ pszField c ++ zeroField c = c := by
  unfold classField selField ctypeField depthField pField pszField zeroField
  iterate 6 rw [BitVec.extractLsb'_append_extractLsb'_eq_extractLsb' (by rfl)]
  exact BitVec.extractLsb'_eq_self

theorem formatCode_of_formatOf {sel : BitVec 4} {fmt : ImageFormat} (h : formatOf sel = some fmt) :
    fmt.code = sel := by
  revert sel fmt
  decide

theorem colorTypeCode_of_colorTypeOf {ctype : BitVec 3} {ct : ColorType} (h : colorTypeOf ctype = some ct) :
    ct.code = ctype := by
  revert ctype ct
  decide

@[simp] theorem code_paletteSizeOf (psz : BitVec 2) : (paletteSizeOf psz).code = psz := by
  revert psz
  decide

theorem ofBool_beq_one (p : BitVec 1) : BitVec.ofBool (p == 1#1) = p := by
  revert p
  decide

@[simp] theorem encode_decInstr (fmt : ImageFormat) (p : Bool) (psz : PaletteSize) :
    encode (decInstr fmt p psz) = decWord fmt p psz := by
  cases fmt <;> rfl

@[simp] theorem encode_encInstr (fmt : ImageFormat) (ctype : ColorType) (depth : BitVec 5) :
    encode (encInstr fmt ctype depth) = encWord fmt ctype depth := by
  cases fmt <;> cases ctype <;> revert depth <;> decide

@[simp] theorem encode_metaInstr (fmt : ImageFormat) : encode (metaInstr fmt) = metaWord fmt := by
  cases fmt <;> rfl

/-- The encoder's word of the operation has the class `cls` and, in every other field, what `c` has. -/
def HasFields (c : Word) (cls : BitVec 4) (i : Instr) : Prop :=
  encode i = commandWord cls (selField c) (ctypeField c) (depthField c) (pField c) (pszField c)

section
variable {c : Word} {i : Instr}

theorem decodePrim_fields (h : decodePrim c = .ok i) : HasFields c 0#4 i := by
  unfold decodePrim at h
  split at h
  · cases h
  · rename_i hshape
    split at h
    · cases h
    · rename_i hpal
      push Not at hshape hpal
      split at h <;> cases h <;> rename_i hsel <;>
      · simp [HasFields, encode, hshape, hpal, (BitVec.toNat_eq_nat.mp hsel).2]

theorem decodeTlut_fields (h : decodeTlut c = .ok i) : HasFields c 1#4 i := by
  unfold decodeTlut at h
  split at h
  · cases h
  · rename_i hshape
    split at h
    · cases h
    · rename_i hp
      push Not at hshape
      have hp : pField c = 1 := (BitVec.eq_zero_or_eq_one _).resolve_left hp
      split at h <;> cases h <;> rename_i hsel <;>
      · simp [HasFields, encode, tlutWord, hshape, hp, (BitVec.toNat_eq_nat.mp hsel).2]

theorem decodeDec_fields (h : decodeDec c = .ok i) : HasFields c 2#4 i := by
  unfold decodeDec at h
  split at h
  · cases h
  · rename_i hshape
    push Not at hshape
    split at h
    · rename_i fmt hfmt
      cases h
      simp [HasFields, decWord, hshape, ofBool_beq_one, formatCode_of_formatOf hfmt]
    · cases h

theorem decodeEnc_fields (h : decodeEnc c = .ok i) : HasFields c 3#4 i := by
  unfold decodeEnc at h
  split at h
  · cases h
  · rename_i hpal
    push Not at hpal
    split at h
    · rename_i fmt ct hfmt hct
      cases h
      simp [HasFields, encWord, hpal, formatCode_of_formatOf hfmt, colorTypeCode_of_colorTypeOf hct]
    · cases h
    · cases h

theorem decodeMeta_fields (h : decodeMeta c = .ok i) : HasFields c 4#4 i := by
  unfold decodeMeta at h
  split at h
  · cases h
  · rename_i hshape
    split at h
    · cases h
    · rename_i hpal
      push Not at hshape hpal
      split at h
      · rename_i fmt hfmt
        cases h
        simp [HasFields, metaWord, hshape, hpal, formatCode_of_formatOf hfmt]
      · cases h

/-- An accepted word's low bits are 0, so its fields make it up. -/
theorem HasFields.encode_eq {cls : Nat} (h : HasFields c (BitVec.ofNat 4 cls) i) (hcls : (classField c).toNat = cls)
    (hzero : zeroField c = 0) : encode i = c := by
  have happend := fields_append c
  rw [hzero, (BitVec.toNat_eq_nat.mp hcls).2] at happend
  exact Eq.trans h happend

/-- The word an operation was decoded from is the word it is encoded to: no other word selects it. -/
theorem encode_of_decode (h : decode c = .ok i) : encode i = c := by
  unfold decode at h
  split at h
  · cases h
  · rename_i hzero
    have hzero := not_not.mp hzero
    split at h
    case h_1 hcls => exact (decodePrim_fields h).encode_eq hcls hzero
    case h_2 hcls => exact (decodeTlut_fields h).encode_eq hcls hzero
    case h_3 hcls => exact (decodeDec_fields h).encode_eq hcls hzero
    case h_4 hcls => exact (decodeEnc_fields h).encode_eq hcls hzero
    case h_5 hcls => exact (decodeMeta_fields h).encode_eq hcls hzero
    case h_6 => cases h

end

end Sys2Proof

namespace Sys2Proof.Machine

/-! ## What the invariant says of `STATUS` and of a buffer -/

theorem doneStatus_ne_err : stateField doneStatus ≠ 2 := by
  decide

theorem statusLegal_zero : StatusLegal 0#32 := by
  unfold StatusLegal
  decide

theorem statusLegal_done : StatusLegal doneStatus := by
  unfold StatusLegal
  decide

theorem statusLegal_err (e : OpError) : StatusLegal (errStatus e) :=
  ⟨statusWord_reserved .., by simp, by simpa using code_ne_seven e,
    iff_of_true (by simpa using code_ne_zero e) (stateField_errStatus e)⟩

theorem MemoryLegal.unwritten (cap : Option Nat) (k : Nat) : MemoryLegal cap (k + 1) (Memory.unwritten k) :=
  ⟨unwritten_wf k, fun c hc => by simp [Memory.unwritten] at hc, Nat.lt_succ_self k⟩

/-- What was drawn before now was drawn before any later time. -/
theorem MemoryLegal.later {cap : Option Nat} {k : Nat} {m : Memory} (h : MemoryLegal cap k m) :
    MemoryLegal cap (k + 1) m :=
  have ⟨hwf, hfits, hepoch⟩ := h
  ⟨hwf, hfits, Nat.lt_succ_of_lt hepoch⟩

theorem MemoryLegal.store {cap : Option Nat} {k : Nat} {m : Memory} (h : MemoryLegal cap k m) {off : Nat}
    {bs : List Byte} (hbs : fits cap (off + bs.length) = true) : MemoryLegal cap k (m.store off bs) := by
  obtain ⟨hwf, hfits, hepoch⟩ := h
  refine ⟨store_wf hwf off bs, fun c hc => ?_, hepoch⟩
  rcases mem_store hc with hold | ⟨_, hnew⟩
  · exact hfits c hold
  · exact fits_mono hnew hbs

/-! ## What a host access can do -/

section
variable {s t : State}

/-- The inversion lemma of a host register read (R30). -/
theorem hostReadReg_cases {n : Nat} (ht : hostReadReg n s = .next t) :
    ∃ v, s.register n = some v ∧ t = { s with replies := s.replies ++ [.reg n v] } := by
  unfold hostReadReg at ht
  split at ht
  · rename_i v hv
    cases ht
    exact ⟨v, hv, rfl⟩
  · cases ht

/-- The inversion lemma of a host byte write (R51). -/
theorem hostWriteByte_cases {sp : Space} {off : Nat} {b : Byte} (ht : hostWriteByte sp off b s = .next t) :
    fits (capacity s.config sp) (off + 1) = true ∧
      ((sp = .src ∧ t = { s with src := s.src.store off [b] }) ∨
        (sp = .pal ∧ t = { s with pal := s.pal.store off [b] })) := by
  unfold hostWriteByte at ht
  split at ht
  · rename_i hfits
    cases sp with
    | src => cases ht; exact ⟨hfits, .inl ⟨rfl, rfl⟩⟩
    | pal => cases ht; exact ⟨hfits, .inr ⟨rfl, rfl⟩⟩
    | dst => cases ht
  · cases ht

/-- The inversion lemma of a host byte read (R51). -/
theorem hostReadByte_cases {sp : Space} {off : Nat} (ht : hostReadByte sp off s = .next t) :
    fits (capacity s.config sp) (off + 1) = true ∧
      t = { s with replies := s.replies ++ [.byte sp off (s.byteAt sp off)] } := by
  unfold hostReadByte at ht
  split at ht
  · rename_i hfits
    cases ht
    exact ⟨hfits, rfl⟩
  · cases ht

/-! ## Every update keeps the invariant -/

theorem stateInv_beginOperation (h : StateInv s) (c : Word) : StateInv (beginOperation c s) :=
  { h with
    status := statusLegal_zero
    errInfo := by simp [errKindField]
    noOutputAfterError := fun _ => rfl
    outputRecorded := fun k hk => absurd hk (Nat.not_lt_zero k) }

theorem stateInv_completeOutput (h : StateInv s) {bs : List Byte} (hbs : fits s.config.dstCap bs.length = true) :
    StateInv (completeOutput bs s) :=
  { h with
    status := statusLegal_done
    errInfo := by simp [doneStatus]
    noOutputAfterError := fun herr => absurd herr doneStatus_ne_err
    outputRecorded := fun k hk => by
      have hk : k < bs.length := Nat.lt_of_lt_of_le hk (lengthWord_le bs.length)
      simp [recorded_store, hk]
    dstLegal := h.dstLegal.store (by simpa using hbs) }

theorem stateInv_completeResult (h : StateInv s) (v : Word) : StateInv (completeResult v s) :=
  { h with
    status := statusLegal_done
    errInfo := by simp [doneStatus]
    noOutputAfterError := fun _ => rfl
    outputRecorded := fun k hk => absurd hk (Nat.not_lt_zero k) }

/-- R26, R270: `ERRINFO` must be the shape in the word that `CMD` holds. -/
theorem stateInv_raiseError (h : StateInv s) {e : OpError}
    (hinfo : e.info = if e.code = 3 then (s.cmd >>> 16) &&& 0xFF#32 else 0#32) : StateInv (raiseError e s) where
  status := statusLegal_err e
  errInfo := by simpa using hinfo
  noOutputAfterError := fun _ => rfl
  outputRecorded := fun k hk => absurd hk (Nat.not_lt_zero k)
  srcLenFits := h.srcLenFits
  palLenFits := h.palLenFits
  srcLegal := h.srcLegal.later
  palLegal := h.palLegal.later
  dstLegal := .unwritten _ _

/-- The block after reset, whatever the configuration and the time of the reset. -/
theorem stateInv_resetBlock (s : State) : StateInv (resetBlock s) where
  status := statusLegal_zero
  errInfo := by simp [errKindField]
  noOutputAfterError := fun _ => rfl
  outputRecorded := fun k hk => absurd hk (Nat.not_lt_zero k)
  srcLenFits := fits_zero _
  palLenFits := fits_zero _
  srcLegal := .unwritten _ _
  palLegal := .unwritten _ _
  dstLegal := .unwritten _ _

theorem stateInv_exec (h : StateInv s) {i : Instr} (hcmd : encode i = s.cmd) (ht : exec i s = .next t) :
    StateInv t := by
  rcases exec_ending ht with ⟨bs, hbs, _, rfl⟩ | ⟨v, _, rfl⟩ | ⟨e, ⟨_, hinfo⟩, rfl⟩
  · exact stateInv_completeOutput h hbs
  · exact stateInv_completeResult h v
  · exact stateInv_raiseError h (hcmd ▸ hinfo)

theorem stateInv_issue (h : StateInv s) {c : Word} (ht : issue c s = .next t) : StateInv t := by
  have hbegin := stateInv_beginOperation h c
  rcases issue_cases ht with ⟨i, hi, hexec⟩ | ⟨_, _, rfl⟩
  · exact stateInv_exec hbegin (encode_of_decode hi) hexec
  · exact stateInv_raiseError hbegin (by simp [OpError.info, OpError.code])

theorem stateInv_hostWriteReg (h : StateInv s) {n : Nat} {v : Word} (ht : hostWriteReg n v s = .next t) :
    StateInv t := by
  rcases hostWriteReg_cases ht with
    ⟨_, hissue⟩ | ⟨_, rfl⟩ | ⟨_, rfl⟩ | ⟨_, hfits, rfl⟩ | ⟨_, hfits, rfl⟩ | ⟨_, rfl⟩
  · exact stateInv_issue h hissue
  · exact { h with }
  · exact { h with }
  · exact { h with srcLenFits := hfits }
  · exact { h with palLenFits := hfits }
  · exact { h with }

theorem stateInv_hostAct (h : StateInv s) {a : HostAction} (ht : hostAct a s = .next t) : StateInv t := by
  cases a with
  | writeReg n v => exact stateInv_hostWriteReg h ht
  | readReg n =>
    obtain ⟨v, _, rfl⟩ := hostReadReg_cases ht
    exact { h with }
  | writeByte sp off b =>
    rcases hostWriteByte_cases ht with ⟨hfits, ⟨rfl, rfl⟩ | ⟨rfl, rfl⟩⟩
    · exact { h with srcLegal := h.srcLegal.store hfits }
    · exact { h with palLegal := h.palLegal.store hfits }
  | readByte sp off =>
    obtain ⟨_, rfl⟩ := hostReadByte_cases ht
    exact { h with }
  | reset =>
    cases ht
    exact stateInv_resetBlock s

end

/-- Settles O4: taking the action off the queue touches nothing the invariant speaks of, and the action keeps it. -/
theorem stepKeepsTheInvariant : Obligations.StepKeepsTheInvariant := by
  intro s t h ht
  rcases step_cases ht with ⟨_, rfl⟩ | ⟨a, rest, _, hact⟩
  · exact h
  · exact stateInv_hostAct (s := { s with host := rest }) { h with } hact

/-- Settles O3: the state after reset is what a reset makes of a block whose counter stands at 0. -/
theorem resetMeetsTheInvariant : Obligations.ResetMeetsTheInvariant :=
  stateInv_resetBlock { State.reset with freeIdx := 0 }

end Sys2Proof.Machine

/-! # Registers, the host's accesses, and what an operation writes (10_state R21, R27 to R30, R34) -/

namespace Sys2Proof.Machine

/-! ## Registers (R21, R34) -/

theorem register_none {n : Nat} (h : 10 ≤ n) (s : State) : s.register n = none := by
  obtain ⟨k, rfl⟩ := Nat.exists_eq_add_of_le' h
  rfl

theorem register_isSome {n : Nat} (h : n ≤ 9) (s : State) : (s.register n).isSome := by
  interval_cases n <;> rfl

/-- Settles O10. -/
theorem registerNumbers : Obligations.RegisterNumbers := fun s =>
  ⟨rfl, rfl, rfl, rfl, rfl, rfl, rfl, rfl, rfl, rfl, fun _ h => register_none h s⟩

/-- Settles O1. -/
theorem resetZeroesRegistersAndLeavesBuffersUnspecified :
    Obligations.ResetZeroesRegistersAndLeavesBuffersUnspecified := by
  refine ⟨fun n hn => ?_, rfl, rfl, fun sp k => ?_, rfl, rfl⟩
  · interval_cases n <;> rfl
  · cases sp <;> rfl

/-! ## The step and the host's accesses (R20, R29, R30) -/

section
variable {s : State} {a : HostAction} {rest : List HostAction}

theorem step_idle (h : s.host = []) : step s = .next s := by
  simp [step, h]

theorem step_pending (h : s.host = a :: rest) : step s = hostAct a { s with host := rest } := by
  simp [step, h]

end

/-- Settles O14. -/
theorem idleStepChangesNothing : Obligations.IdleStepChangesNothing := fun _ h => step_idle h

theorem issue_decoded {c : Word} {i : Instr} (h : decode c = .ok i) (s : State) :
    issue c s = exec i (beginOperation c s) := by
  simp [issue, h]

/-- Settles O5: `beginOperation` is the state R29 prepares. -/
theorem stepRunsTheDecodedOperation : Obligations.StepRunsTheDecodedOperation := by
  intro s c i rest hhost hi
  exact (step_pending hhost).trans (issue_decoded hi _)

theorem hostWriteReg_refused {n : Nat} (h : 6 ≤ n) (v : Word) (s : State) : ∃ r, hostWriteReg n v s = .refused r := by
  obtain ⟨k, rfl⟩ := Nat.exists_eq_add_of_le' h
  rcases k with _ | _ | _ | _ | k <;> exact ⟨_, rfl⟩

theorem hostWriteReg_srcLen {v : Word} {s : State} (h : fits s.config.srcCap v.toNat = true) :
    hostWriteReg 3 v s = .next { s with srcLen := v } := if_pos h

theorem hostWriteReg_palLen {v : Word} {s : State} (h : fits s.config.palCap v.toNat = true) :
    hostWriteReg 4 v s = .next { s with palLen := v } := if_pos h

theorem hostReadReg_some {n : Nat} {w : Word} {s : State} (h : s.register n = some w) :
    hostReadReg n s = .next { s with replies := s.replies ++ [.reg n w] } := by
  simp [hostReadReg, h]

theorem hostReadReg_refused {n : Nat} (h : 10 ≤ n) (s : State) : ∃ r, hostReadReg n s = .refused r :=
  ⟨.noSuchRegister n, by simp [hostReadReg, register_none h]⟩

/-- Settles O9: one clause per register or range of numbers, each the access with its action taken off the queue. -/
theorem hostRegisterAccess : Obligations.HostRegisterAccess := by
  intro s v rest
  refine ⟨fun h => step_pending h, fun h => step_pending h,
    fun h hfits => (step_pending h).trans (hostWriteReg_srcLen hfits),
    fun h hfits => (step_pending h).trans (hostWriteReg_palLen hfits),
    fun h => step_pending h, fun n hn h => ?_, fun n w hw h => (step_pending h).trans (hostReadReg_some hw),
    fun n hn h => ?_⟩
  · rw [step_pending h]
    exact hostWriteReg_refused hn v _
  · rw [step_pending h]
    exact hostReadReg_refused hn _

/-! ## Which host actions stop the machine (R30, R51, U8, U9; log 9) -/

/-- Every command word runs, a reserved one into its error. -/
theorem issue_next (c : Word) (s : State) : ∃ t, issue c s = .next t := by
  unfold issue
  split
  · exact exec_next _ _
  · exact ⟨_, rfl⟩

theorem hostWriteReg_next_iff (n : Nat) (v : Word) (s : State) :
    (∃ t, hostWriteReg n v s = .next t) ↔ legalAction s (.writeReg n v) = true := by
  constructor
  · rintro ⟨t, ht⟩
    rcases hostWriteReg_cases ht with
      ⟨rfl, _⟩ | ⟨rfl, _⟩ | ⟨rfl, _⟩ | ⟨rfl, hfits, _⟩ | ⟨rfl, hfits, _⟩ | ⟨rfl, _⟩ <;> simp [legalAction, *]
  · intro hlegal
    simp only [legalAction, Bool.and_eq_true, Bool.or_eq_true, decide_eq_true_eq, bne_iff_ne] at hlegal
    obtain ⟨⟨hn, hsrc⟩, hpal⟩ := hlegal
    interval_cases n
    · exact issue_next v s
    · exact ⟨_, rfl⟩
    · exact ⟨_, rfl⟩
    · exact ⟨_, hostWriteReg_srcLen (hsrc.resolve_left (not_not.mpr rfl))⟩
    · exact ⟨_, hostWriteReg_palLen (hpal.resolve_left (not_not.mpr rfl))⟩
    · exact ⟨_, rfl⟩

theorem hostReadReg_next_iff (n : Nat) (s : State) :
    (∃ t, hostReadReg n s = .next t) ↔ legalAction s (.readReg n) = true := by
  simp only [legalAction, decide_eq_true_eq]
  constructor
  · rintro ⟨t, ht⟩
    obtain ⟨v, hv, _⟩ := hostReadReg_cases ht
    by_contra hn
    simp [register_none (Nat.lt_of_not_le hn)] at hv
  · intro hn
    obtain ⟨w, hw⟩ := Option.isSome_iff_exists.mp (register_isSome hn s)
    exact ⟨_, hostReadReg_some hw⟩

theorem hostWriteByte_next_iff (sp : Space) (off : Nat) (b : Byte) (s : State) :
    (∃ t, hostWriteByte sp off b s = .next t) ↔ legalAction s (.writeByte sp off b) = true := by
  by_cases hfits : fits (capacity s.config sp) (off + 1) = true
  · cases sp <;> simp [hostWriteByte, legalAction, hfits]
  · simp [hostWriteByte, legalAction, hfits]

theorem hostReadByte_next_iff (sp : Space) (off : Nat) (s : State) :
    (∃ t, hostReadByte sp off s = .next t) ↔ legalAction s (.readByte sp off) = true := by
  by_cases hfits : fits (capacity s.config sp) (off + 1) = true <;> simp [hostReadByte, legalAction, hfits]

theorem hostAct_next_iff (a : HostAction) (s : State) : (∃ t, hostAct a s = .next t) ↔ legalAction s a = true := by
  cases a with
  | writeReg n v => exact hostWriteReg_next_iff n v s
  | readReg n => exact hostReadReg_next_iff n s
  | writeByte sp off b => exact hostWriteByte_next_iff sp off b s
  | readByte sp off => exact hostReadByte_next_iff sp off s
  | reset => exact iff_of_true ⟨_, rfl⟩ rfl

/-- The queue has no part in whether an action is legal. -/
theorem legalAction_host (s : State) (a : HostAction) (rest : List HostAction) :
    legalAction { s with host := rest } a = legalAction s a := by
  cases a <;> rfl

/-- Settles O13: action by action, and the action does not see the queue it came from. -/
theorem stepStopsExactlyOnIllegalHostActions : Obligations.StepStopsExactlyOnIllegalHostActions := by
  intro s a rest h
  rw [step_pending h, hostAct_next_iff, legalAction_host]

/-! ## What an operation writes (R21, R27, R28, R51) -/

/-- Settles O17: each of the three endings writes no more than its own fields. -/
theorem operationsNeverWriteTheirInputs : Obligations.OperationsNeverWriteTheirInputs := by
  intro i s t h
  rcases exec_ending h with ⟨bs, _, _, rfl⟩ | ⟨v, _, rfl⟩ | ⟨e, _, rfl⟩ <;> rfl

/-- Settles O19: of the three endings only `completeResult` writes `RES`, and it belongs to an operation that has a
result and ends in `DONE`. -/
theorem resultRegisterKeptOtherwise : Obligations.ResultRegisterKeptOtherwise := by
  intro i s t h hkept
  rcases exec_ending h with ⟨bs, _, _, rfl⟩ | ⟨v, hres, rfl⟩ | ⟨e, _, rfl⟩
  · rfl
  · rcases hkept with hnone | herr
    · simp [hres] at hnone
    · exact absurd herr doneStatus_ne_err
  · rfl

/-! ## The length of an output (R151, R165, R177, R201) -/

/-- The operation ended with an output of `n` bytes or in an error. -/
def OutputOrError (n : Nat) (s t : State) : Prop :=
  (∃ bs, bs.length = n ∧ t = completeOutput bs s) ∨ ∃ e, t = raiseError e s

/-- A loop whose every chunk has `m` bytes emits `m` per iteration. -/
theorem emitLoop_length {cap : Option Nat} {item : Nat → Except OpError (List Byte)} {m n i dp : Nat}
    {bs : List Byte} (hitem : ∀ k chunk, item k = .ok chunk → chunk.length = m)
    (h : emitLoop cap item n i dp = .ok bs) : bs.length = n * m := by
  induction n generalizing i dp bs with
  | zero =>
    cases h
    simp
  | succ n ih =>
    simp only [emitLoop] at h
    split at h
    · cases h
    · rename_i chunk hchunk
      split at h
      · split at h
        · cases h
        · rename_i rest hrest
          cases h
          rw [List.length_append, hitem i chunk hchunk, ih hrest, Nat.succ_mul, Nat.add_comm]
      · cases h

/-- The value of a mapped computation is the function's at some value. -/
theorem map_ok {α β : Type} {x : Except OpError α} {f : α → β} {b : β} (h : x.map f = .ok b) : ∃ a, f a = b := by
  cases x with
  | error e => cases h
  | ok a =>
    cases h
    exact ⟨a, rfl⟩

section
variable {s t : State}

theorem emit_length {n m : Nat} {item : Nat → Except OpError (List Byte)}
    (hitem : ∀ k chunk, item k = .ok chunk → chunk.length = m)
    (h : finishOutput (emitAll s.config.dstCap n item) s = .next t) : OutputOrError (n * m) s t := by
  rcases finishOutput_next h with ⟨bs, hbs, rfl⟩ | ⟨e, _, rfl⟩
  · exact .inl ⟨bs, emitLoop_length hitem hbs, rfl⟩
  · exact .inr ⟨e, rfl⟩

theorem error_length {n : Nat} {e : OpError} (h : finishOutput (.error e) s = .next t) : OutputOrError n s t := by
  cases h
  exact .inr ⟨e, rfl⟩

theorem emitVerbatim_length {v : View} (h : finishOutput (emitVerbatim s.config.dstCap v) s = .next t) :
    OutputOrError v.len s t := by
  have hlen := emit_length (m := 1) (fun k chunk hk => by obtain ⟨b, rfl⟩ := map_ok hk; rfl) h
  rwa [Nat.mul_one] at hlen

theorem decodePixels_length {pixel : Nat → Except OpError Rgba}
    (h : finishOutput (decodePixels s.config.dstCap s.pixelCount pixel) s = .next t) :
    OutputOrError (4 * npix s) s t := by
  rw [Nat.mul_comm]
  exact emit_length (fun k chunk hk => by obtain ⟨q, rfl⟩ := map_ok hk; rfl) h

theorem decodeIndexed_length {pixel : List Rgba → View → Nat → Except OpError Rgba} {p : Bool} {psz : PaletteSize}
    (h : decodeIndexed pixel p psz s = .next t) : OutputOrError (4 * npix s) s t := by
  unfold decodeIndexed at h
  split at h
  · split at h
    · exact error_length h
    · exact decodePixels_length h
  · exact error_length h

theorem encodeGroups_length {k m : Nat} {out : (Nat → Byte) → List Byte} (hout : ∀ c, (out c).length = m)
    (h : encodeGroups k out s = .next t) : OutputOrError (s.srcLen.toNat / k * m) s t :=
  emit_length (fun _ chunk hk => by obtain ⟨c, rfl⟩ := map_ok hk; exact hout c) h

theorem tableBytes_length (tbl : List Rgba) : (tableBytes tbl).length = 4 * tbl.length := by
  simp [tableBytes, List.length_flatMap, quadBytes, Nat.mul_comm]

theorem tlutDecode_length {n : Nat} {pal : View} {tbl : List Rgba} (h : tlutDecode n pal = .ok tbl) :
    tbl.length = n := by
  unfold tlutDecode at h
  split at h <;> cases h
  simp

theorem execTlutDecode_length {psz : PaletteSize} (h : execTlutDecode psz s = .next t) :
    OutputOrError (4 * entries s.config psz) s t := by
  unfold execTlutDecode at h
  split at h
  · exact error_length h
  · rename_i tbl htbl
    rw [← tlutDecode_length htbl, ← tableBytes_length]
    exact emitVerbatim_length h

end

theorem outI8G4_length (mode : I8G4Mode) (c : Nat → Byte) :
    (outI8G4 mode c).length = if mode = .fold then 1 else 2 := by
  cases mode <;> rfl

theorem outIA4GA8_length (highFirst : Bool) (c : Nat → Byte) : (outIA4GA8 highFirst c).length = 1 := by
  cases highFirst <;> rfl

/-- An operation without a result writes `outputLength` bytes where it does not fail. -/
theorem exec_outputLength {i : Instr} {s t : State} (hi : returnsResult i = false) (h : exec i s = .next t) :
    OutputOrError (outputLength i s) s t := by
  cases i
  case tlutDecode => exact execTlutDecode_length h
  case decI4 => exact decodePixels_length h
  case decI8 => exact decodePixels_length h
  case decIA4 => exact decodePixels_length h
  case decIA8 => exact decodePixels_length h
  case decIA16 => exact decodePixels_length h
  case decRGBA16 => exact decodePixels_length h
  case decRGBA32 => exact decodePixels_length h
  case decCI4 => exact decodeIndexed_length (pixel := fun tbl src k => pixelCI4 tbl src (s.position k)) h
  case decCI8 => exact decodeIndexed_length (pixel := pixelCI8) h
  case encRGBA32RGBA8 => exact emitVerbatim_length h
  case encI4G4 => exact emitVerbatim_length h
  case encI8G8 => exact emitVerbatim_length h
  case encIA16GA8 => exact emitVerbatim_length h
  case encCI4IDX4 => exact emitVerbatim_length h
  case encCI8IDX8 => exact emitVerbatim_length h
  case encI8G4 => exact encodeGroups_length (outI8G4_length _) h
  case encIA4GA8 => exact encodeGroups_length (outIA4GA8_length _) h
  case encRGBA16RGBA8 => exact encodeGroups_length (fun _ => rfl) h
  case encI4G8 => exact encodeGroups_length (fun _ => rfl) h
  case encI4GA8 => exact encodeGroups_length (fun _ => rfl) h
  case encI4RGB8 => exact encodeGroups_length (fun _ => rfl) h
  case encI4RGBA8 => exact encodeGroups_length (fun _ => rfl) h
  case encI8GA8 => exact encodeGroups_length (fun _ => rfl) h
  case encI8RGB8 => exact encodeGroups_length (fun _ => rfl) h
  case encI8RGBA8 => exact encodeGroups_length (fun _ => rfl) h
  case encIA8GA8 => exact encodeGroups_length (fun _ => rfl) h
  case encCI4IDX8 => exact encodeGroups_length (fun _ => rfl) h
  case encCI8IDX4 => exact encodeGroups_length (fun _ => rfl) h
  case encI4Other => exact error_length h
  case encI8Other => exact error_length h
  case encIA4Other => exact error_length h
  case encIA8Other => exact error_length h
  case encIA16Other => exact error_length h
  case encCI4Other => exact error_length h
  case encCI8Other => exact error_length h
  case encRGBA16Other => exact error_length h
  case encRGBA32Other => exact error_length h
  all_goals cases hi

/-- A successful operation with a result writes no byte and counts none (R27, R28). -/
theorem exec_result_noOutput {i : Instr} {s t : State} (hi : returnsResult i = true) (h : exec i s = .next t)
    (hdone : t.status = 1#32) : t.dstLen = 0#32 ∧ t.dst = s.dst := by
  rcases exec_ending h with ⟨bs, _, hnone, rfl⟩ | ⟨v, _, rfl⟩ | ⟨e, _, rfl⟩
  · simp [hi] at hnone
  · exact ⟨rfl, rfl⟩
  · exact absurd hdone (errStatus_ne_done e)

/-- Settles O20: an operation with a result ends in `completeResult`, one without in `completeOutput` of
`outputLength` bytes, and only `raiseError` ends in `ERR`. -/
theorem outputLengthCountsTheOutput : Obligations.OutputLengthCountsTheOutput := by
  intro i s t h
  refine ⟨fun hdone hi => exec_result_noOutput hi h hdone, fun hdone hi => ?_, fun herr => ?_⟩
  · rcases exec_outputLength hi h with ⟨bs, hlen, rfl⟩ | ⟨e, rfl⟩
    · have houtput := completeOutput_done bs s
      rw [← hlen]
      exact ⟨rfl, houtput.congr rfl fun k hk => (houtput.byteAt hk).symm⟩
    · exact absurd hdone (errStatus_ne_done e)
  · rcases exec_ending h with ⟨bs, _, _, rfl⟩ | ⟨v, _, rfl⟩ | ⟨e, _, rfl⟩
    · exact absurd herr doneStatus_ne_err
    · exact absurd herr doneStatus_ne_err
    · rfl

end Sys2Proof.Machine

/-! # The byte spaces (20_memory R50, R51, R54, R58, R62) -/

namespace Sys2Proof.Machine

/-! ## The host's byte accesses (R51, R62) -/

section
variable {s t : State} {sp : Space} {off : Nat} {b : Byte}

/-- What a host byte write does to the three spaces, said once for SRC and PAL. -/
theorem hostWriteByte_memory (h : hostWriteByte sp off b s = .next t) :
    t.memory sp = (s.memory sp).store off [b] ∧ (∀ sp', sp' ≠ sp → t.memory sp' = s.memory sp') ∧
      t = { s with src := t.src, pal := t.pal } := by
  obtain ⟨-, ⟨rfl, rfl⟩ | ⟨rfl, rfl⟩⟩ := hostWriteByte_cases h
  · exact ⟨rfl, fun sp' hne => by cases sp' <;> simp at hne ⊢, rfl⟩
  · exact ⟨rfl, fun sp' hne => by cases sp' <;> simp at hne ⊢, rfl⟩

theorem hostReadByte_ok (h : fits (capacity s.config sp) (off + 1) = true) :
    hostReadByte sp off s = .next { s with replies := s.replies ++ [.byte sp off (s.byteAt sp off)] } := if_pos h

end

/-- Settles O11: the written space is a store of one byte, which is read back, hides no other byte and keeps the
canonical form. -/
theorem hostByteWriteChangesOneByte : Obligations.HostByteWriteChangesOneByte := by
  intro s sp off b rest hsp hfits hhost
  obtain ⟨t, ht⟩ := (hostWriteByte_next_iff sp off b { s with host := rest }).mpr
    (by simp [legalAction, hfits, hsp])
  obtain ⟨hmem, hother, hframe⟩ := hostWriteByte_memory ht
  refine ⟨t, (step_pending hhost).trans ht, ?_, fun k hk => ?_, hother, fun hwf => ?_, hframe⟩
  · rw [State.byteAt, hmem]
    exact byteAt_store_inside sp _ off [b] 0 Nat.one_pos
  · rw [State.byteAt, hmem]
    exact byteAt_store_outside sp _ off [b] k (Nat.lt_or_gt_of_ne hk)
  · rw [hmem]
    exact store_wf hwf off [b]

/-- Settles O12: the byte read does not depend on the queue the action came from. -/
theorem hostByteReadReturnsTheByte : Obligations.HostByteReadReturnsTheByte := by
  intro s sp off rest hfits hhost
  exact (step_pending hhost).trans (hostReadByte_ok hfits)

/-! ## The bytes an image needs (R58, R90) -/

/-- Two pixels to a byte: the last byte may be half used. -/
theorem needBytes_nibbles {fmt : ImageFormat} (h : bitsPerPixel fmt = 4) (n : Nat) :
    needBytes fmt n = (n + 1) / 2 := by
  rw [needBytes, h]
  omega

/-- A whole number of bytes to a pixel. -/
theorem needBytes_bytes {fmt : ImageFormat} {k : Nat} (h : bitsPerPixel fmt = 8 * k) (n : Nat) :
    needBytes fmt n = k * n := by
  have hbits : n * (8 * k) = 8 * (k * n) := by ring
  rw [needBytes, h, hbits]
  omega

/-- Settles O40: three formats of 4 bits a pixel and six of one, two or four whole bytes. -/
theorem neededBytesTable : Obligations.NeededBytesTable := by
  intro n
  have hone {fmt : ImageFormat} (h : bitsPerPixel fmt = 8) : needBytes fmt n = n :=
    (needBytes_bytes (k := 1) h n).trans (Nat.one_mul n)
  exact ⟨needBytes_nibbles rfl n, hone rfl, needBytes_nibbles rfl n, hone rfl, needBytes_bytes rfl n,
    needBytes_nibbles rfl n, hone rfl, needBytes_bytes rfl n, needBytes_bytes rfl n⟩

/-! ## What the items of an output loop give where the bytes they read are present -/

section
variable {v : View} {s : State}

theorem emitVerbatim_item {k : Nat} (h : k < v.len) :
    (v.read8 k).map (fun b : Byte => [b]) = .ok [v.byte k] := by
  rw [read8_ok h]
  rfl

/-- Every whole group of a group arm is present (R201). -/
theorem groupBytes_item {k j : Nat} {out : (Nat → Byte) → List Byte} (hj : j < v.len / k) :
    (v.window (k * j) k).map out = .ok (out (fun t => v.byte (k * j + t))) := by
  have hend : k * j + k ≤ v.len :=
    calc k * j + k = k * (j + 1) := rfl
      _ ≤ k * (v.len / k) := Nat.mul_le_mul_left k hj
      _ ≤ v.len := Nat.mul_div_le v.len k
  rw [window_ok hend]
  rfl

/-! ## The palette table (R151, R152) -/

/-- The table of `n` entries that a palette holds. -/
def paletteTable (n : Nat) (pal : View) : List Rgba := (List.range n).map (paletteEntry pal)

theorem paletteTable_length (n : Nat) (pal : View) : (paletteTable n pal).length = n := by
  simp [paletteTable]

theorem tlutDecode_ok {n : Nat} {pal : View} (h : 2 * n ≤ pal.len) : tlutDecode n pal = .ok (paletteTable n pal) :=
  if_neg (Nat.not_lt.mpr h)

theorem tlutLookup_paletteTable {n : Nat} {pal : View} {index : Byte} (h : index.toNat < n) :
    tlutLookup (paletteTable n pal) index = .ok (paletteEntry pal index.toNat) := by
  simp [tlutLookup, paletteTable, h]

theorem pixelNibble_toNat (p : Nat) (b : Byte) :
    (pixelNibble true p b).toNat = if p % 2 = 0 then b.toNat / 16 else b.toNat % 16 := by
  by_cases hp : p % 2 = 0
  · simp [pixelNibble, hp, Nat.shiftRight_eq_div_pow]
  · have hmask : b.toNat &&& 15 = b.toNat % 16 := Nat.and_two_pow_sub_one_eq_mod b.toNat 4
    simp [pixelNibble, hp, loMask, hmask]

/-- A CI4 pixel that is present and whose index is in the table (R168). -/
theorem pixelCI4_ok {n p : Nat} {pal : View} (hp : p / 2 < s.srcLen.toNat) (hn : nibbleNumber s p < n) :
    pixelCI4 (paletteTable n pal) s.srcView p = .ok (paletteEntry pal (nibbleNumber s p)) := by
  have hnumber : (pixelNibble true p (s.byteAt .src (p / 2))).toNat = nibbleNumber s p := pixelNibble_toNat ..
  rw [pixelCI4, nibble_ok hp, ← hnumber]
  exact tlutLookup_paletteTable (hnumber ▸ hn)

/-- A CI8 pixel that is present and whose index is in the table (R169). -/
theorem pixelCI8_ok {n p : Nat} {pal : View} (hp : p < s.srcLen.toNat) (hn : srcNumber s p < n) :
    pixelCI8 (paletteTable n pal) s.srcView p = .ok (paletteEntry pal (srcNumber s p)) := by
  rw [pixelCI8, read8_ok hp]
  exact tlutLookup_paletteTable hn

theorem decodeIndexed_palette {psz : PaletteSize} (pixel : List Rgba → View → Nat → Except OpError Rgba)
    (hpal : 2 * entries s.config psz ≤ s.palLen.toNat) :
    decodeIndexed pixel true psz s =
      finishOutput (decodePixels s.config.dstCap s.pixelCount
        (pixel (paletteTable (entries s.config psz) s.palView) s.srcView)) s := by
  simp [decodeIndexed, tlutDecode_ok (pal := s.palView) hpal]

end

/-! ## An output beyond DST_CAP (R54, R266) -/

section
variable {i : Instr} {s : State}

theorem emitVerbatim_io {v : View} (hexec : exec i s = finishOutput (emitVerbatim s.config.dstCap v) s)
    (hfits : ¬ OutputFits s v.len) : Fails i s 5 0 :=
  fails_io_of_chunks (m := 1) hexec (fun _ hk => emitVerbatim_item hk) (fun _ => rfl) (by rwa [Nat.mul_one])

theorem encodeGroups_io {k m : Nat} {out : (Nat → Byte) → List Byte} (hexec : exec i s = encodeGroups k out s)
    (hout : ∀ c, (out c).length = m) (hfits : ¬ OutputFits s (s.srcLen.toNat / k * m)) : Fails i s 5 0 :=
  fails_io_of_chunks hexec (fun _ hj => groupBytes_item hj) (fun _ => hout _) hfits

theorem tlutDecode_io {psz : PaletteSize} (hpal : 2 * entries s.config psz ≤ s.palLen.toNat)
    (hfits : ¬ OutputFits s (4 * entries s.config psz)) : Fails (.tlutDecode psz) s 5 0 := by
  refine emitVerbatim_io (v := .ofList (tableBytes (paletteTable (entries s.config psz) s.palView))) ?_ ?_
  · simp [exec, execTlutDecode, tlutDecode_ok (pal := s.palView) hpal]
  · simpa [View.ofList, tableBytes_length, paletteTable_length] using hfits

/-- An indexed decode whose pixels all have an entry: pixel `q` that of `index q`. -/
theorem decodeIndexed_io {psz : PaletteSize} {pixel : List Rgba → View → Nat → Except OpError Rgba}
    {index : Nat → Nat} (hexec : exec i s = decodeIndexed pixel true psz s)
    (hpal : 2 * entries s.config psz ≤ s.palLen.toNat) (hfits : ¬ OutputFits s (4 * npix s))
    (hpixel : ∀ q, q < npix s → pixel (paletteTable (entries s.config psz) s.palView) s.srcView q =
      .ok (paletteEntry s.palView (index q))) : Fails i s 5 0 := by
  refine fails_io_of_chunks (m := 4) (f := fun q => quadBytes (paletteEntry s.palView (index q)))
    (hexec.trans (decodeIndexed_palette pixel hpal)) (fun q hq => ?_) (fun _ => rfl) ?_
  · rw [hpixel q hq]
    rfl
  · rwa [Nat.mul_comm] at hfits

end

/-- Both readings that expand take one byte a group (R210). -/
theorem strideI8G4_expand {mode : I8G4Mode} (h : mode ≠ .fold) : strideI8G4 mode = 1 := by
  cases mode with
  | expandShift => rfl
  | expandReplicate => rfl
  | fold => exact absurd rfl h

/-- Settles O54: each operation is one of four loops whose items all emit, so only the capacity can end it. -/
theorem outputBeyondCapacityIsIo : Obligations.OutputBeyondCapacityIsIo := by
  intro s
  refine ⟨fun psz => tlutDecode_io, ?verbatim, ?groups, fun hmode hfits => ?expand, fun hmode hfits => ?fold,
    fun psz hpal hfits => ⟨fun hpixels => ?ci4, fun hpixels => ?ci8⟩⟩
  case verbatim =>
    simp only [List.forall_mem_cons]
    refine ⟨?_, ?_, ?_, ?_, ?_, ?_, List.forall_mem_nil _⟩ <;> exact emitVerbatim_io (v := s.srcView) rfl
  case groups =>
    simp only [List.forall_mem_cons]
    refine ⟨?_, ?_, ?_, ?_, ?_, ?_, ?_, ?_, encodeGroups_io rfl (outIA4GA8_length _), ?_, ?_, ?_,
      List.forall_mem_nil _⟩ <;> exact encodeGroups_io rfl fun _ => rfl
  case expand =>
    refine encodeGroups_io rfl (outI8G4_length _) ?_
    simpa [hmode, strideI8G4_expand hmode] using hfits
  case fold =>
    refine encodeGroups_io rfl (outI8G4_length _) ?_
    simpa [hmode, strideI8G4] using hfits
  case ci4 =>
    exact decodeIndexed_io (pixel := fun tbl src k => pixelCI4 tbl src (s.position k)) (index := nibbleIndex s) rfl
      hpal hfits
      fun q hq => (hpixels q hq).elim pixelCI4_ok
  case ci8 =>
    exact decodeIndexed_io (index := srcNumber s) rfl hpal hfits
      fun q hq => (hpixels q hq).elim pixelCI8_ok

end Sys2Proof.Machine

/-! # Command words (30_encoding R80 to R88, R100)

`commandWord` and the field functions are inverse, so the decoder can be run on the word of each class with its operands
left open. That a word is the encoding of what it decodes to is `encode_of_decode`. -/

namespace Sys2Proof

/-! ## The fields of an assembled word (R80) -/

section
variable (cls sel : BitVec 4) (ctype : BitVec 3) (depth : BitVec 5) (p : BitVec 1) (psz : BitVec 2)

@[simp] theorem classField_commandWord : classField (commandWord cls sel ctype depth p psz) = cls := by
  unfold classField commandWord
  iterate 6 rw [BitVec.extractLsb'_append_eq_of_le (by decide)]
  exact BitVec.extractLsb'_eq_self

@[simp] theorem selField_commandWord : selField (commandWord cls sel ctype depth p psz) = sel := by
  unfold selField commandWord
  iterate 5 rw [BitVec.extractLsb'_append_eq_of_le (by decide)]
  exact BitVec.extractLsb'_append_eq_right

@[simp] theorem ctypeField_commandWord : ctypeField (commandWord cls sel ctype depth p psz) = ctype := by
  unfold ctypeField commandWord
  iterate 4 rw [BitVec.extractLsb'_append_eq_of_le (by decide)]
  exact BitVec.extractLsb'_append_eq_right

@[simp] theorem depthField_commandWord : depthField (commandWord cls sel ctype depth p psz) = depth := by
  unfold depthField commandWord
  iterate 3 rw [BitVec.extractLsb'_append_eq_of_le (by decide)]
  exact BitVec.extractLsb'_append_eq_right

@[simp] theorem pField_commandWord : pField (commandWord cls sel ctype depth p psz) = p := by
  unfold pField commandWord
  iterate 2 rw [BitVec.extractLsb'_append_eq_of_le (by decide)]
  exact BitVec.extractLsb'_append_eq_right

@[simp] theorem pszField_commandWord : pszField (commandWord cls sel ctype depth p psz) = psz := by
  unfold pszField commandWord
  rw [BitVec.extractLsb'_append_eq_of_le (by decide)]
  exact BitVec.extractLsb'_append_eq_right

@[simp] theorem zeroField_commandWord : zeroField (commandWord cls sel ctype depth p psz) = 0 :=
  BitVec.extractLsb'_append_eq_right

end

/-! ## The codes of the enumerations (R83, R84, R86) -/

@[simp] theorem formatOf_code (fmt : ImageFormat) : formatOf fmt.code = some fmt := by
  cases fmt <;> rfl

@[simp] theorem colorTypeOf_code (ctype : ColorType) : colorTypeOf ctype.code = some ctype := by
  cases ctype <;> rfl

@[simp] theorem paletteSizeOf_code (psz : PaletteSize) : paletteSizeOf psz.code = psz := by
  cases psz <;> rfl

theorem ofBool_eq_one (p : Bool) : (BitVec.ofBool p == 1#1) = p := by
  cases p <;> rfl

/-! ## The decoder on the word of each class (R81) -/

theorem decode_tlutWord_zero (psz : PaletteSize) : decode (tlutWord 0 psz) = .ok (.tlutDecode psz) := by
  simp [decode, decodeTlut, tlutWord]

theorem decode_tlutWord_one (psz : PaletteSize) : decode (tlutWord 1 psz) = .ok (.tlutLookup psz) := by
  simp [decode, decodeTlut, tlutWord]

theorem decode_decWord (fmt : ImageFormat) (p : Bool) (psz : PaletteSize) :
    decode (decWord fmt p psz) = .ok (decInstr fmt p psz) := by
  simp [decode, decodeDec, decWord, ofBool_eq_one]

theorem decode_encWord (fmt : ImageFormat) (ctype : ColorType) (depth : BitVec 5) :
    decode (encWord fmt ctype depth) = .ok (encInstr fmt ctype depth) := by
  simp [decode, decodeEnc, encWord]

theorem decode_metaWord (fmt : ImageFormat) : decode (metaWord fmt) = .ok (metaInstr fmt) := by
  simp [decode, decodeMeta, metaWord]

/-! ## Which operations a word stands for -/

/-- The catch-all `ENC.fmt.other` of a format (R221). -/
def encOther (fmt : ImageFormat) (ctype : ColorType) (depth : BitVec 5) : Instr :=
  match fmt with
  | .i4 => .encI4Other ctype depth
  | .i8 => .encI8Other ctype depth
  | .ia4 => .encIA4Other ctype depth
  | .ia8 => .encIA8Other ctype depth
  | .ia16 => .encIA16Other ctype depth
  | .ci4 => .encCI4Other ctype depth
  | .ci8 => .encCI8Other ctype depth
  | .rgba16 => .encRGBA16Other ctype depth
  | .rgba32 => .encRGBA32Other ctype depth

theorem encode_encOther (fmt : ImageFormat) (ctype : ColorType) (depth : BitVec 5) :
    encode (encOther fmt ctype depth) = encWord fmt ctype depth := by
  cases fmt <;> rfl

theorem wellFormed_encOther (fmt : ImageFormat) (ctype : ColorType) (depth : BitVec 5) :
    (encOther fmt ctype depth).wellFormed = !accepted fmt ctype depth := by
  cases fmt <;> rfl

/-- The catch-all is selected for exactly the shapes that are on no row of the whitelist: the first nineteen rows of
`encInstr` are those of the whitelist, and the last nine, one per format, have every other shape. -/
theorem encInstr_eq_encOther_iff (fmt : ImageFormat) (ctype : ColorType) (depth : BitVec 5) :
    encInstr fmt ctype depth = encOther fmt ctype depth ↔ (encOther fmt ctype depth).wellFormed = true := by
  rw [wellFormed_encOther]
  unfold encInstr
  split
  case h_20 | h_21 | h_22 | h_23 | h_24 | h_25 | h_26 | h_27 | h_28 =>
    refine iff_of_true rfl ?_
    simp_all [accepted, whitelist, ← imp_iff_not_or]
  all_goals
    rename_i hdepth
    refine iff_of_false (fun h => by cases h) ?_
    simp [accepted, whitelist, hdepth]

/-- The word of a catch-all decodes to it where it is well-formed, else to the row of the shape. -/
theorem decode_encode_encOther_iff (fmt : ImageFormat) (ctype : ColorType) (depth : BitVec 5) :
    decode (encode (encOther fmt ctype depth)) = .ok (encOther fmt ctype depth) ↔
      (encOther fmt ctype depth).wellFormed = true := by
  rw [encode_encOther, decode_encWord, Except.ok.injEq]
  exact encInstr_eq_encOther_iff fmt ctype depth

/-- An operation is what its word decodes to exactly when it is well-formed. -/
theorem decode_encode_iff (i : Instr) : decode (encode i) = .ok i ↔ i.wellFormed = true := by
  cases i
  case pack16 => exact iff_of_true rfl rfl
  case unpack16 => exact iff_of_true rfl rfl
  case luma => exact iff_of_true rfl rfl
  case tlutDecode psz => exact iff_of_true (decode_tlutWord_zero psz) rfl
  case tlutLookup psz => exact iff_of_true (decode_tlutWord_one psz) rfl
  case decI4 p psz => exact iff_of_true (decode_decWord .i4 p psz) rfl
  case decI8 p psz => exact iff_of_true (decode_decWord .i8 p psz) rfl
  case decIA4 p psz => exact iff_of_true (decode_decWord .ia4 p psz) rfl
  case decIA8 p psz => exact iff_of_true (decode_decWord .ia8 p psz) rfl
  case decIA16 p psz => exact iff_of_true (decode_decWord .ia16 p psz) rfl
  case decCI4 p psz => exact iff_of_true (decode_decWord .ci4 p psz) rfl
  case decCI8 p psz => exact iff_of_true (decode_decWord .ci8 p psz) rfl
  case decRGBA16 p psz => exact iff_of_true (decode_decWord .rgba16 p psz) rfl
  case decRGBA32 p psz => exact iff_of_true (decode_decWord .rgba32 p psz) rfl
  case encI4Other ctype depth => exact decode_encode_encOther_iff .i4 ctype depth
  case encI8Other ctype depth => exact decode_encode_encOther_iff .i8 ctype depth
  case encIA4Other ctype depth => exact decode_encode_encOther_iff .ia4 ctype depth
  case encIA8Other ctype depth => exact decode_encode_encOther_iff .ia8 ctype depth
  case encIA16Other ctype depth => exact decode_encode_encOther_iff .ia16 ctype depth
  case encCI4Other ctype depth => exact decode_encode_encOther_iff .ci4 ctype depth
  case encCI8Other ctype depth => exact decode_encode_encOther_iff .ci8 ctype depth
  case encRGBA16Other ctype depth => exact decode_encode_encOther_iff .rgba16 ctype depth
  case encRGBA32Other ctype depth => exact decode_encode_encOther_iff .rgba32 ctype depth
  case metaI4 => exact iff_of_true (decode_metaWord .i4) rfl
  case metaI8 => exact iff_of_true (decode_metaWord .i8) rfl
  case metaIA4 => exact iff_of_true (decode_metaWord .ia4) rfl
  case metaIA8 => exact iff_of_true (decode_metaWord .ia8) rfl
  case metaIA16 => exact iff_of_true (decode_metaWord .ia16) rfl
  case metaCI4 => exact iff_of_true (decode_metaWord .ci4) rfl
  case metaCI8 => exact iff_of_true (decode_metaWord .ci8) rfl
  case metaRGBA16 => exact iff_of_true (decode_metaWord .rgba16) rfl
  case metaRGBA32 => exact iff_of_true (decode_metaWord .rgba32) rfl
  all_goals exact iff_of_true (decode_encWord _ _ _) rfl

/-- Settles O7: a word that decodes is the word of what it decodes to, so both halves are `decode_encode_iff`. -/
theorem decodeAndEncodeAgree : Obligations.DecodeAndEncodeAgree := by
  refine ⟨fun i => (decode_encode_iff i).mpr, fun c i h => ?_⟩
  have hword : encode i = c := encode_of_decode h
  exact ⟨(decode_encode_iff i).mp (hword ▸ h), hword⟩

/-- Settles O8: the decoder, run on each word. -/
theorem opcodeMapWordsDecode : Obligations.OpcodeMapWordsDecode :=
  ⟨rfl, rfl, rfl, rfl, rfl, rfl, rfl, rfl, rfl, rfl, rfl, rfl, rfl, rfl, rfl, rfl⟩

end Sys2Proof

namespace Sys2Proof.Machine

/-! ## The reserved words (R88, R265) -/

/-- The decoder selects no operation. -/
def Rejects (x : Except Reserved Instr) : Prop := ∃ r, x = .error r

@[simp] theorem rejects_error (r : Reserved) : Rejects (.error r) := ⟨r, rfl⟩

@[simp] theorem not_rejects_ok (i : Instr) : ¬ Rejects (.ok i) := fun ⟨_, h⟩ => by cases h

@[simp] theorem rejects_ite {q : Prop} [Decidable q] (r : Reserved) (x : Except Reserved Instr) :
    Rejects (if q then .error r else x) ↔ q ∨ Rejects x := by
  by_cases hq : q <;> simp [hq]

theorem formatOf_eq_none_iff (sel : BitVec 4) : formatOf sel = none ↔ 8 < sel.toNat := by
  revert sel
  decide

theorem colorTypeOf_eq_none_iff (ctype : BitVec 3) : colorTypeOf ctype = none ↔ 5 ≤ ctype.toNat := by
  revert ctype
  decide

theorem toNat_eq_zero_iff {w : Nat} {x : BitVec w} : x.toNat = 0 ↔ x = 0#w := by
  simp [← BitVec.toNat_inj]

/-- The clauses of R88 for a class code, on the other fields of the word. -/
def ReservedIn (cls : Nat) (c : Word) : Prop :=
  reservedFields cls (selField c).toNat (ctypeField c).toNat (depthField c).toNat (pField c).toNat (pszField c).toNat 0

section
variable (c : Word)

theorem decodePrim_rejects : Rejects (decodePrim c) ↔ ReservedIn 0 c := by
  rw [decodePrim, rejects_ite, rejects_ite]
  split
  case h_4 h0 h1 h2 =>
    simp only [imp_false] at h0 h1 h2
    have hsel : 2 < (selField c).toNat := by omega
    simp [ReservedIn, reservedFields, hsel]
  case h_1 hsel | h_2 hsel | h_3 hsel =>
    simp [ReservedIn, reservedFields, hsel, toNat_eq_zero_iff, or_assoc]

theorem decodeTlut_rejects : Rejects (decodeTlut c) ↔ ReservedIn 1 c := by
  rw [decodeTlut, rejects_ite, rejects_ite]
  split
  case h_3 h0 h1 =>
    simp only [imp_false] at h0 h1
    have hsel : 1 < (selField c).toNat := by omega
    simp [ReservedIn, reservedFields, hsel]
  case h_1 hsel | h_2 hsel =>
    simp [ReservedIn, reservedFields, hsel, toNat_eq_zero_iff, or_assoc]

theorem decodeDec_rejects : Rejects (decodeDec c) ↔ ReservedIn 2 c := by
  cases hfmt : formatOf (selField c) <;>
  simp [decodeDec, ReservedIn, reservedFields, ← formatOf_eq_none_iff, hfmt, toNat_eq_zero_iff]

theorem decodeEnc_rejects : Rejects (decodeEnc c) ↔ ReservedIn 3 c := by
  cases hfmt : formatOf (selField c) <;> cases hctype : colorTypeOf (ctypeField c) <;>
  simp [decodeEnc, ReservedIn, reservedFields, ← formatOf_eq_none_iff, hfmt, ← colorTypeOf_eq_none_iff, hctype,
    toNat_eq_zero_iff]

theorem decodeMeta_rejects : Rejects (decodeMeta c) ↔ ReservedIn 4 c := by
  cases hfmt : formatOf (selField c) <;>
  simp [decodeMeta, ReservedIn, reservedFields, ← formatOf_eq_none_iff, hfmt, toNat_eq_zero_iff, or_assoc]

/-- The numbers R88 speaks of are those of the decoder's fields. -/
theorem reservedWord_iff_fields : reservedWord c ↔
    reservedFields (classField c).toNat (selField c).toNat (ctypeField c).toNat (depthField c).toNat (pField c).toNat
      (pszField c).toNat (zeroField c).toNat := by
  have hcls : c.toNat / 2 ^ 28 = (classField c).toNat := by
    rw [classField, BitVec.extractLsb'_toNat, Nat.shiftRight_eq_div_pow]
    omega
  rw [reservedWord, hcls]
  simp [selField, ctypeField, depthField, pField, pszField, zeroField, Nat.shiftRight_eq_div_pow]

/-- The decoder rejects exactly the words of R88. -/
theorem decode_rejects_iff : Rejects (decode c) ↔ reservedWord c := by
  rw [reservedWord_iff_fields, decode, rejects_ite]
  by_cases hzero : zeroField c = 0
  · rw [hzero, or_iff_right (not_not.mpr rfl)]
    split
    case h_1 hcls => rw [hcls]; exact decodePrim_rejects c
    case h_2 hcls => rw [hcls]; exact decodeTlut_rejects c
    case h_3 hcls => rw [hcls]; exact decodeDec_rejects c
    case h_4 hcls => rw [hcls]; exact decodeEnc_rejects c
    case h_5 hcls => rw [hcls]; exact decodeMeta_rejects c
    case h_6 h0 h1 h2 h3 h4 =>
      simp only [imp_false] at h0 h1 h2 h3 h4
      have hcls : 5 ≤ (classField c).toNat := by omega
      exact iff_of_true (rejects_error _) (.inr (.inl hcls))
  · exact iff_of_true (.inl hzero) (.inl (mt toNat_eq_zero_iff.mp hzero))

end

theorem issue_rejected {c : Word} (h : Rejects (decode c)) (s : State) :
    issue c s = .next (raiseError .illegalCommand (beginOperation c s)) := by
  obtain ⟨r, hr⟩ := h
  rw [issue, hr]

/-- An error overwrites what the start of the operation cleared: `CMD` is all that is left of it (R29, R270). -/
theorem ErrorEntered.of_beginOperation {c : Word} {s t : State} {code : Nat} {info : Word}
    (h : ErrorEntered (beginOperation c s) t code info) : ErrorEntered { s with cmd := c } t code info :=
  { h with drawnAfresh := h.drawnAfresh, frame := h.frame }

/-- Settles O6: the decoder rejects the words of R88, and the issue of a rejected word is one `raiseError`. -/
theorem reservedWordsRaiseIllegalCommand : Obligations.ReservedWordsRaiseIllegalCommand := by
  refine fun c => ⟨(decode_rejects_iff c).symm, fun hc s rest hhost => ?_⟩
  have hissue := issue_rejected ((decode_rejects_iff c).mpr hc) { s with host := rest }
  have herror := raiseError_entered .illegalCommand (beginOperation c { s with host := rest })
  exact ⟨_, (step_pending hhost).trans hissue, herror.of_beginOperation⟩

end Sys2Proof.Machine

namespace Sys2Proof.Machine

/-! ## The palette size codes (R86) -/

/-- Settles O28: the codes, the parameters and the values R9 gives them, as they are written down. -/
theorem paletteSizeCodesAndEntries : Obligations.PaletteSizeCodesAndEntries :=
  ⟨rfl, rfl, rfl, rfl, fun _ => ⟨rfl, rfl, rfl, rfl⟩, rfl, rfl, rfl, rfl⟩

/-! ## A decode without a palette (R87, R176) -/

/-- `s` with the shape and the palette of `u`. -/
def State.reshape (s u : State) : State :=
  { s with width := u.width, height := u.height, palLen := u.palLen, pal := u.pal }

/-- How an operation ends reads neither the shape nor the palette, and leaves both. -/
theorem finishOutput_reshape {r : Except OpError (List Byte)} {s t : State} (h : finishOutput r s = .next t)
    (u : State) : finishOutput r (s.reshape u) = .next (t.reshape u) := by
  rcases finishOutput_next h with ⟨bs, rfl, rfl⟩ | ⟨e, rfl, rfl⟩ <;> rfl

/-- An output loop asks for its own items only. -/
theorem emitLoop_congr {cap : Option Nat} {item item' : Nat → Except OpError (List Byte)} {n i dp : Nat}
    (h : ∀ k, k < i + n → item' k = item k) : emitLoop cap item' n i dp = emitLoop cap item n i dp := by
  induction n generalizing i dp with
  | zero => rfl
  | succ n ih =>
    have htail (dp : Nat) : emitLoop cap item' n (i + 1) dp = emitLoop cap item n (i + 1) dp :=
      ih fun k hk => h k (by omega)
    simp only [emitLoop, h i (by omega), htail]

theorem decodePixels_congr {cap : Option Nat} {n : Nat} {pixel pixel' : Nat → Except OpError Rgba}
    (h : ∀ q, q < n → pixel' q = pixel q) : decodePixels cap n pixel' = decodePixels cap n pixel :=
  emitLoop_congr fun q hq => by rw [h q (by omega)]

/-- A decode without a palette reads of the shape the product and, through its pixels, the position of each. -/
theorem decodePlain_reshape {pixel : State → View → Nat → Except OpError Rgba} {s u t : State}
    (hu : u = s.reshape u) (hcount : npix u = npix s)
    (hpixel : ∀ q, q < npix s → pixel u s.srcView q = pixel s s.srcView q) (h : decodePlain (pixel s) s = .next t) :
    decodePlain (pixel u) u = .next (t.reshape u) := by
  have hsrc : u.srcView = s.srcView := by rw [hu]; rfl
  have hcap : u.config.dstCap = s.config.dstCap := by rw [hu]; rfl
  have hpixelCount : u.pixelCount = s.pixelCount := hcount
  have hpixels : decodePixels u.config.dstCap u.pixelCount (pixel u u.srcView) =
      decodePixels s.config.dstCap s.pixelCount (pixel s s.srcView) := by
    rw [hsrc, hcap, hpixelCount]
    exact decodePixels_congr hpixel
  have hfinish := finishOutput_reshape h u
  rwa [← hu, ← hpixels] at hfinish

/-- Where the layout is stated every pixel of a 4-bit image lies at its own index (R59, U10). -/
theorem position_stated {s : State} (h : LayoutStated s) {q : Nat} (hq : q < npix s) : s.position q = q := by
  refine nibblePosition_stated ?_
  rcases h with hlinear | heven | hrow
  · exact .inl hlinear
  · exact .inr (.inl heven)
  · have hfirst : npix s ≤ s.width.toNat :=
      (Nat.mul_le_mul_left s.width.toNat hrow).trans_eq (Nat.mul_one _)
    exact .inr (.inr (Nat.lt_of_lt_of_le hq hfirst))

/-- The decodes of a format are its nine rows of R100, with any `P` and `PSZ`. -/
theorem eq_decInstr_of_decodedFormat {i : Instr} {fmt : ImageFormat} (h : decodedFormat i = some fmt) :
    ∃ p psz, i = decInstr fmt p psz := by
  cases i <;> cases h <;> exact ⟨_, _, rfl⟩

/-- Settles O44: neither word's `P` and `PSZ` reach the meaning, which reads the shape for the number of pixels and, in
a 4-bit format, for the position of each, and that is its index on both states. -/
theorem plainDecodeIgnoresPaletteAndShape : Obligations.PlainDecodeIgnoresPaletteAndShape := by
  intro i j fmt s u t hi hj hci4 hci8 hu hcount hlayout h
  obtain ⟨p, psz, rfl⟩ := eq_decInstr_of_decodedFormat hi
  obtain ⟨p', psz', rfl⟩ := eq_decInstr_of_decodedFormat hj
  have hposition (hbits : bitsPerPixel fmt = 4) (q : Nat) (hq : q < npix s) : u.position q = s.position q := by
    obtain ⟨hs, hu'⟩ := hlayout hbits
    rw [position_stated hs hq, position_stated hu' (hcount ▸ hq)]
  cases fmt with
  | i4 =>
    exact decodePlain_reshape (pixel := fun x src q => pixelI4 src (x.position q)) hu hcount
      (fun q hq => by rw [hposition rfl q hq]) h
  | ia4 =>
    have hfirst : u.config.ia4HighFirst = s.config.ia4HighFirst := by rw [hu]
    exact decodePlain_reshape (pixel := fun x src q => pixelIA4 x.config.ia4HighFirst src (x.position q)) hu hcount
      (fun q hq => by rw [hposition rfl q hq, hfirst]) h
  | i8 => exact decodePlain_reshape (pixel := fun _ => pixelI8) hu hcount (fun _ _ => rfl) h
  | ia8 => exact decodePlain_reshape (pixel := fun _ => pixelIA8) hu hcount (fun _ _ => rfl) h
  | ia16 => exact decodePlain_reshape (pixel := fun _ => pixelIA16) hu hcount (fun _ _ => rfl) h
  | rgba16 => exact decodePlain_reshape (pixel := fun _ => pixelRGBA16) hu hcount (fun _ _ => rfl) h
  | rgba32 => exact decodePlain_reshape (pixel := fun _ => pixelRGBA32) hu hcount (fun _ _ => rfl) h
  | ci4 => exact absurd rfl hci4
  | ci8 => exact absurd rfl hci8

end Sys2Proof.Machine

/-! # The colour primitives (40_color_primitives R131 to R136)

Each primitive is read once as the arithmetic of its rule: `pack16_toNat`, `unpack16_eq_unpackedQuad` and `luma_toNat`.
The results in `RES` and the round trips follow from these three equations. -/

namespace Sys2Proof.Machine

/-! ## A quadruple and its register value (R28, R96) -/

/-- Concatenation as a number: the right operand is below the left one's weight. -/
theorem toNat_append_eq_add {m n : Nat} (x : BitVec m) (y : BitVec n) :
    (x ++ y).toNat = x.toNat * 2 ^ n + y.toNat := by
  rw [BitVec.toNat_append, ← Nat.shiftLeft_add_eq_or_of_lt y.isLt, Nat.shiftLeft_eq]

theorem quadToWord_toNat (q : Rgba) : (quadToWord q).toNat = quadNumber q := by
  simp only [quadToWord, quadNumber, toNat_append_eq_add]
  omega

theorem quadToWord_eq_ofNat (q : Rgba) : quadToWord q = BitVec.ofNat 32 (quadNumber q) := by
  rw [← quadToWord_toNat, BitVec.ofNat_toNat, BitVec.setWidth_eq]

theorem extractByte_eq_ofNat (w : Word) (k : Nat) : w.extractLsb' k 8 = BitVec.ofNat 8 (w.toNat / 2 ^ k) := by
  rw [BitVec.extractLsb', Nat.shiftRight_eq_div_pow]

theorem quadOfWord_eq_ofNat (w : Word) :
    quadOfWord w = Rgba.mk (BitVec.ofNat 8 (w.toNat / 2 ^ 24)) (BitVec.ofNat 8 (w.toNat / 2 ^ 16))
      (BitVec.ofNat 8 (w.toNat / 2 ^ 8)) (BitVec.ofNat 8 w.toNat) := by
  simp only [quadOfWord, extractByte_eq_ofNat, Nat.pow_zero, Nat.div_one]

/-- The top byte of a register needs no mask. -/
theorem ofNat_topByte_toNat (w : Word) : (BitVec.ofNat 8 (w.toNat / 2 ^ 24)).toNat = w.toNat / 2 ^ 24 := by
  rw [BitVec.toNat_ofNat]
  omega

theorem halfOfWord_toNat (w : Word) : (halfOfWord w).toNat = w.toNat % 2 ^ 16 := by
  simp [halfOfWord]

/-! ## The primitives in the arithmetic of the rules -/

/-- A value with its low `k` bits clear and one of `k` bits do not overlap, so their disjunction is their sum. -/
theorem toNat_or_eq_add {w k : Nat} {x y : BitVec w} (hx : 2 ^ k ∣ x.toNat) (hy : y.toNat < 2 ^ k) :
    (x ||| y).toNat = x.toNat + y.toNat := by
  obtain ⟨a, ha⟩ := hx
  rw [BitVec.toNat_or, ha, Nat.two_pow_add_eq_or_of_lt hy]

/-- The five high bits of a channel at bit `k` of a `P16` value (R131). -/
theorem packedField_toNat (c : Byte) {k : Nat} (hk : k ≤ 11) :
    ((c >>> 3).setWidth 16 <<< k).toNat = c.toNat / 8 * 2 ^ k := by
  have hfield : c.toNat / 8 < 2 ^ 5 := by omega
  have hfits : c.toNat / 8 * 2 ^ k < 2 ^ 16 := calc
    c.toNat / 8 * 2 ^ k < 2 ^ 5 * 2 ^ k := Nat.mul_lt_mul_of_pos_right hfield (Nat.two_pow_pos k)
    _ ≤ 2 ^ 5 * 2 ^ 11 := Nat.mul_le_mul_left _ (Nat.pow_le_pow_right (by decide) hk)
  have hwide : ((c >>> 3).setWidth 16).toNat = c.toNat / 8 := by
    rw [BitVec.toNat_setWidth, BitVec.toNat_ushiftRight, Nat.shiftRight_eq_div_pow]
    omega
  rw [BitVec.toNat_shiftLeft, hwide, Nat.shiftLeft_eq, Nat.mod_eq_of_lt hfits]

/-- The alpha bit of a `P16` value (R131). -/
theorem packedAlpha_toNat (a : Byte) : ((a / 255#8).setWidth 16).toNat = a.toNat / 255 := by
  have halpha : a.toNat / 255 < 2 ^ 16 := by omega
  exact (BitVec.toNat_setWidth _ _).trans (Nat.mod_eq_of_lt halpha)

/-- R131: every field lies below the weight of the one before it. -/
theorem pack16_toNat (q : Rgba) :
    (pack16 q).toNat = packedNumber q.r.toNat q.g.toNat q.b.toNat q.a.toNat := by
  have hr := packedField_toNat q.r (k := 11) (by decide)
  have hg := packedField_toNat q.g (k := 6) (by decide)
  have hb := packedField_toNat q.b (k := 1) (by decide)
  have ha := packedAlpha_toNat q.a
  have hrg := toNat_or_eq_add (k := 11) (x := (q.r >>> 3).setWidth 16 <<< 11)
    (y := (q.g >>> 3).setWidth 16 <<< 6) (by omega) (by omega)
  have hrgb := toNat_or_eq_add (k := 6) (x := _ ||| _) (y := (q.b >>> 3).setWidth 16 <<< 1)
    (by rw [hrg]; omega) (by omega)
  rw [pack16, toNat_or_eq_add (k := 1) (by omega) (by omega), hrgb, hrg, hr, hg, hb, ha]
  rfl

/-- A 5-bit field of a `P16` value, scaled by 8 (R132). -/
theorem scaledField_eq_ofNat (p : Half) (k : Nat) :
    (((p >>> k) &&& 0x1F#16) <<< 3).setWidth 8 = BitVec.ofNat 8 (p.toNat / 2 ^ k % 32 * 8) := by
  have hmask (x : Nat) : x &&& 31 = x % 32 := Nat.and_two_pow_sub_one_eq_mod x 5
  apply BitVec.eq_of_toNat_eq
  simp [Nat.shiftRight_eq_div_pow, Nat.shiftLeft_eq, hmask]

/-- The alpha bit of a `P16` value, scaled by 255 (R132). -/
theorem scaledAlpha_eq_ofNat (p : Half) :
    ((p &&& 1#16) * 255#16).setWidth 8 = BitVec.ofNat 8 (p.toNat % 2 * 255) := by
  apply BitVec.eq_of_toNat_eq
  simp

theorem unpack16_eq_unpackedQuad (p : Half) : unpack16 p = unpackedQuad p.toNat := by
  simp only [unpack16, unpackedQuad, scaledField_eq_ofNat, scaledAlpha_eq_ofNat, Nat.reducePow]

theorem luma_toNat (rule : LumaRule) (r g b : Byte) : (luma rule r g b).toNat = lumaNumber rule r g b := by
  cases rule with
  | exactIntegers =>
    have hbyte : (2126 * r.toNat + 7152 * g.toNat + 722 * b.toNat) / 10000 < 256 := by omega
    exact (BitVec.toNat_ofNat _ _).trans (Nat.mod_eq_of_lt hbyte)
  | other n => rfl

/-! ## The operations (R131 to R133) -/

/-- An operation that ends with a value returns it (R28, R29). -/
theorem returns_of_value {i : Instr} {s : State} {v w : Word} (hexec : exec i s = finishResult (.ok v) s)
    (hv : v = w) : Returns i s w :=
  hv ▸ hexec

/-- Settles O22: the packed colour of the four bytes of `ARG`. -/
theorem packResult : Obligations.PackResult := by
  refine ⟨rfl, fun s => returns_of_value rfl ?_⟩
  rw [← BitVec.ofNat_toNat, pack16_toNat, quadOfWord_eq_ofNat, ofNat_topByte_toNat]
  simp only [BitVec.toNat_ofNat, Nat.reducePow]

/-- Settles O23: only `ARG[15:0]` is extracted. -/
theorem unpackResult : Obligations.UnpackResult := by
  refine ⟨rfl, fun s => returns_of_value rfl ?_⟩
  rw [quadToWord_eq_ofNat, unpack16_eq_unpackedQuad, halfOfWord_toNat]

/-- What `LUMA` returns under every rule (R133). -/
theorem luma_returns (s : State) :
    Returns .luma s (BitVec.ofNat 32 (luma s.config.lumaRule (BitVec.ofNat 8 (s.arg.toNat / 2 ^ 24))
      (BitVec.ofNat 8 (s.arg.toNat / 2 ^ 16)) (BitVec.ofNat 8 (s.arg.toNat / 2 ^ 8))).toNat) := by
  refine returns_of_value rfl ?_
  rw [BitVec.ofNat_toNat, quadOfWord_eq_ofNat]

/-- Settles O24: under the exact rule the returned number is the formula on the three bytes. -/
theorem lumaResult : Obligations.LumaResult := by
  refine ⟨rfl, fun s => ⟨fun hrule => ?_, luma_returns s⟩⟩
  have hreturns := luma_returns s
  rw [hrule, luma_toNat, lumaNumber, ofNat_topByte_toNat] at hreturns
  simpa only [BitVec.toNat_ofNat, Nat.reducePow] using hreturns

/-! ## Round trips and fixed points (R134 to R136) -/

/-- Masking the low three bits truncates to a multiple of 8. -/
theorem and_F8_eq_ofNat (c : Byte) : c &&& 0xF8#8 = BitVec.ofNat 8 (c.toNat / 8 * 8) := by
  revert c
  decide

theorem unpackedQuad_packedNumber {r g b a : Nat} (hr : r < 256) (hg : g < 256) (hb : b < 256) (ha : a < 256) :
    unpackedQuad (packedNumber r g b a) = Rgba.mk (BitVec.ofNat 8 (r / 8 * 8)) (BitVec.ofNat 8 (g / 8 * 8))
      (BitVec.ofNat 8 (b / 8 * 8)) (BitVec.ofNat 8 (a / 255 * 255)) := by
  have hred : packedNumber r g b a / 2048 % 32 = r / 8 := by unfold packedNumber; omega
  have hgreen : packedNumber r g b a / 64 % 32 = g / 8 := by unfold packedNumber; omega
  have hblue : packedNumber r g b a / 2 % 32 = b / 8 := by unfold packedNumber; omega
  have halpha : packedNumber r g b a % 2 = a / 255 := by unfold packedNumber; omega
  rw [unpackedQuad, hred, hgreen, hblue, halpha]

/-- The hard threshold of R131: only 255 keeps its alpha. -/
theorem ofNat_alpha_eq_ite (a : Byte) :
    BitVec.ofNat 8 (a.toNat / 255 * 255) = if a = 255#8 then 255#8 else 0#8 := by
  by_cases ha : a = 255#8
  · subst ha
    rfl
  · have hlt : a.toNat < 255 := by bv_omega
    rw [if_neg ha, Nat.div_eq_of_lt hlt, Nat.zero_mul]

/-- Settles O25: each field of the packed number is the high bits of one channel. -/
theorem packThenUnpack : Obligations.PackThenUnpack := by
  intro r g b a
  rw [unpack16_eq_unpackedQuad, pack16_toNat, unpackedQuad_packedNumber r.isLt g.isLt b.isLt a.isLt,
    ofNat_alpha_eq_ite, and_F8_eq_ofNat, and_F8_eq_ofNat, and_F8_eq_ofNat]

/-- Settles O26: the channels of an unpacked value carry its four fields unchanged. -/
theorem unpackThenPack : Obligations.UnpackThenPack := by
  intro p
  apply BitVec.eq_of_toNat_eq
  have halpha : p.toNat % 2 * 255 % 2 ^ 8 / 255 = p.toNat % 2 := by
    rcases Nat.mod_two_eq_zero_or_one p.toNat with h | h <;> simp [h]
  rw [pack16_toNat, unpack16_eq_unpackedQuad]
  simp only [unpackedQuad, packedNumber, BitVec.toNat_ofNat, halpha]
  omega

theorem luma_exactIntegers_gray (v : Byte) : luma .exactIntegers v v v = v := by
  apply BitVec.eq_of_toNat_eq
  rw [luma_toNat, lumaNumber]
  omega

/-- Settles O27: the source's three values hold by the formula and by the definition of the other rules. -/
theorem lumaFixedValues : Obligations.LumaFixedValues := by
  refine ⟨fun rule => ?_, by decide, by decide, luma_exactIntegers_gray⟩
  cases rule with
  | exactIntegers => decide
  | other n => exact ⟨rfl, rfl, rfl⟩

end Sys2Proof.Machine

/-! # The palette table (41_tlut R151, R152)

Both operations first build the table: `tlutDecode_short` and `tlutDecode_ok` say when it exists, and
`paletteEntry_eq_unpackedQuad` what stands in it. `TLUT.DECODE` copies its bytes, `TLUT.LOOKUP` picks one entry. -/

namespace Sys2Proof.Machine

/-! ## The table and its bytes -/

theorem tlutDecode_short {n : Nat} {pal : View} (h : pal.len < 2 * n) : tlutDecode n pal = .error .truncatedInput :=
  if_pos h

theorem tlutLookup_paletteTable_outOfRange {n : Nat} {pal : View} {index : Byte} (h : n ≤ index.toNat) :
    tlutLookup (paletteTable n pal) index = .error .paletteIndexOutOfRange := by
  have hnone : (paletteTable n pal)[index.toNat]? = none :=
    List.getElem?_eq_none ((paletteTable_length n pal).trans_le h)
  rw [tlutLookup, hnone]

theorem indexOfWord_toNat (w : Word) : (indexOfWord w).toNat = w.toNat % 256 := by
  simp [indexOfWord]

/-- Two bytes as the number of R55. -/
theorem halfOfBytes_toNat (b0 b1 : Byte) : (halfOfBytes b0 b1).toNat = 256 * b0.toNat + b1.toNat := by
  rw [halfOfBytes, toNat_append_eq_add]
  omega

theorem paletteEntry_eq_unpackedQuad (s : State) (e : Nat) :
    paletteEntry s.palView e = unpackedQuad (halfNumber s .pal (2 * e)) := by
  rw [paletteEntry, unpack16_eq_unpackedQuad, halfOfBytes_toNat]
  rfl

theorem quadBytes_getElem? (q : Rgba) {j : Nat} (hj : j < 4) : (quadBytes q)[j]? = some (channel q j) :=
  match j, hj with
  | 0, _ => rfl
  | 1, _ => rfl
  | 2, _ => rfl
  | 3, _ => rfl

/-- The table is the stream of its entries (R92, R93). -/
theorem tableBytes_paletteTable_getD {n k : Nat} (pal : View) (hk : k < 4 * n) :
    (tableBytes (paletteTable n pal)).getD k 0 = streamByte (paletteEntry pal) k := by
  have hchunks : tableBytes (paletteTable n pal) =
      (List.range' 0 n).flatMap fun e => quadBytes (paletteEntry pal e) := by
    rw [tableBytes, paletteTable, List.flatMap_map, List.range_eq_range']
  have hbyte : (tableBytes (paletteTable n pal))[k]? = some (streamByte (paletteEntry pal) k) := by
    rw [hchunks, flatMap_chunks_getElem? (m := 4) (by decide) (fun _ => rfl) 0 n k (by omega),
      quadBytes_getElem? _ (Nat.mod_lt k (by decide)), Nat.zero_add]
    rfl
  rw [List.getD_eq_getElem?_getD, hbyte, Option.getD_some]

/-! ## The operations (R151, R152) -/

/-- A verbatim copy whose view fits outputs the view's bytes. -/
theorem outputs_of_emitVerbatim {i : Instr} {s : State} {v : View} {n : Nat} {f : Nat → Byte}
    (hexec : exec i s = finishOutput (emitVerbatim s.config.dstCap v) s) (hlen : v.len = n)
    (hbyte : ∀ k, k < n → v.byte k = f k) (hfits : OutputFits s n) : Outputs i s n f := by
  obtain ⟨t, ht, hdone⟩ := outputs_of_chunks (m := 1) hexec (fun _ hk => emitVerbatim_item hk) Nat.one_pos
    (fun _ => rfl) (by rwa [Nat.mul_one, hlen])
  refine ⟨t, ht, hdone.congr (by rw [Nat.mul_one, hlen]) fun k hk => ?_⟩
  rw [Nat.div_one, Nat.mod_one]
  exact hbyte k hk

section
variable {psz : PaletteSize} {s : State}

theorem exec_tlutDecode_short (h : s.palLen.toNat < 2 * entries s.config psz) :
    exec (.tlutDecode psz) s = finishOutput (.error .truncatedInput) s := by
  simp [exec, execTlutDecode, tlutDecode_short (pal := s.palView) h]

theorem exec_tlutDecode_ok (h : 2 * entries s.config psz ≤ s.palLen.toNat) :
    exec (.tlutDecode psz) s = finishOutput (emitVerbatim s.config.dstCap
      (.ofList (tableBytes (paletteTable (entries s.config psz) s.palView)))) s := by
  simp [exec, execTlutDecode, tlutDecode_ok (pal := s.palView) h]

theorem exec_tlutLookup_short (h : s.palLen.toNat < 2 * entries s.config psz) :
    exec (.tlutLookup psz) s = finishOutput (.error .truncatedInput) s := by
  simp [exec, execTlutLookup, tlutDecode_short (pal := s.palView) h, finishResult, finishOutput]

theorem exec_tlutLookup_ok (h : 2 * entries s.config psz ≤ s.palLen.toNat) :
    exec (.tlutLookup psz) s = finishResult
      ((tlutLookup (paletteTable (entries s.config psz) s.palView) (indexOfWord s.arg)).map quadToWord) s := by
  simp [exec, execTlutLookup, tlutDecode_ok (pal := s.palView) h]

end

/-- Settles O29: the output is a verbatim copy of the table's bytes, which are the stream of its entries. -/
theorem tlutDecodeResult : Obligations.TlutDecodeResult := by
  intro psz
  refine ⟨by cases psz <;> rfl, fun s => ⟨fun hshort => ?short, fun hpal hfits => ?table⟩⟩
  case short => exact fails_of_error (exec_tlutDecode_short hshort)
  case table =>
    refine outputs_of_emitVerbatim (exec_tlutDecode_ok hpal) ?_ (fun k hk => ?_) hfits
    · exact (tableBytes_length _).trans (by rw [paletteTable_length])
    · refine (tableBytes_paletteTable_getD s.palView hk).trans ?_
      simp only [streamByte, paletteEntry_eq_unpackedQuad]

/-- Settles O30: the index `ARG[7:0]` is looked up only in a table that exists. -/
theorem tlutLookupResult : Obligations.TlutLookupResult := by
  intro psz
  refine ⟨by cases psz <;> rfl, fun s => ?_⟩
  rw [← indexOfWord_toNat]
  refine ⟨fun hshort => ?short, fun hpal hrange => ?range, fun hpal hindex => ?entry⟩
  case short => exact fails_of_error (exec_tlutLookup_short hshort)
  case range =>
    have hexec := exec_tlutLookup_ok hpal
    rw [tlutLookup_paletteTable_outOfRange hrange] at hexec
    exact fails_of_error (e := .paletteIndexOutOfRange) hexec
  case entry =>
    have hexec := exec_tlutLookup_ok hpal
    rw [tlutLookup_paletteTable hindex] at hexec
    refine returns_of_value hexec ?_
    rw [quadToWord_eq_ofNat, paletteEntry_eq_unpackedQuad]

end Sys2Proof.Machine

/-! # Decode to an RGBA8 stream (42_decode R165 to R178)

Every decode is the pixel loop of R165. What the loop does follows from what its pixels are: `outputs_of_pixels` when
each is a quadruple, `fails_of_firstPixel` when one is an error. A format enters through one lemma that says what its
pixel is where its bytes are present and where they are not (`ReadsPixels`, `LooksUp`). -/

namespace Sys2Proof.Machine

/-! ## The pixels of an image (R58, R61) -/

section
variable {fmt : ImageFormat} {s : State} {q : Nat}

/-- A format has 4 bits or whole bytes to a pixel (R90). -/
theorem bitsPerPixel_cases (fmt : ImageFormat) :
    bitsPerPixel fmt = 4 ∨ ∃ k, 0 < k ∧ bitsPerPixel fmt = 8 * k := by
  cases fmt with
  | i4 | ia4 | ci4 => exact .inl rfl
  | i8 | ia8 | ci8 => exact .inr ⟨1, by decide⟩
  | ia16 | rgba16 => exact .inr ⟨2, by decide⟩
  | rgba32 => exact .inr ⟨4, by decide⟩

theorem pixelPresent_nibbles (h : bitsPerPixel fmt = 4) : PixelPresent fmt s q ↔ nibblePresent s q := by
  rw [PixelPresent, if_pos h]

theorem pixelPresent_bytes {k : Nat} (h : bitsPerPixel fmt = 8 * k) :
    PixelPresent fmt s q ↔ k * q + k ≤ s.srcLen.toNat := by
  have hwhole : bitsPerPixel fmt ≠ 4 := by omega
  have hbytes : bitsPerPixel fmt / 8 = k := by omega
  rw [PixelPresent, if_neg hwhole, hbytes, Nat.mul_comm (q + 1) k, Nat.mul_succ]

/-- The bytes of R58 are what it takes for every pixel to be present. -/
theorem needBytes_le_iff (hlayout : bitsPerPixel fmt = 4 → LayoutStated s) :
    needBytes fmt (npix s) ≤ s.srcLen.toNat ↔ ∀ q, q < npix s → PixelPresent fmt s q := by
  rcases bitsPerPixel_cases fmt with hbits | ⟨k, hk, hbits⟩
  · have hpresent (q : Nat) (hq : q < npix s) : PixelPresent fmt s q ↔ q / 2 < s.srcLen.toNat := by
      rw [pixelPresent_nibbles hbits, nibblePresent, position_stated (hlayout hbits) hq]
    rw [needBytes_nibbles hbits]
    refine ⟨fun hneed q hq => (hpresent q hq).mpr (by omega), fun hall => ?_⟩
    by_contra hshort
    have hlast := (hpresent (npix s - 1) (by omega)).mp (hall _ (by omega))
    omega
  · rw [needBytes_bytes hbits]
    refine ⟨fun hneed q hq => (pixelPresent_bytes hbits).mpr ((Nat.mul_le_mul_left k hq).trans hneed), fun hall => ?_⟩
    cases hn : npix s with
    | zero => exact Nat.zero_le _
    | succ n => exact (pixelPresent_bytes hbits).mp (hall n (by omega))

/-- An image that is too short misses a pixel. -/
theorem exists_missing_of_lt_needBytes (hlayout : bitsPerPixel fmt = 4 → LayoutStated s)
    (h : s.srcLen.toNat < needBytes fmt (npix s)) : ∃ q, q < npix s ∧ ¬ PixelPresent fmt s q := by
  by_contra hnone
  push Not at hnone
  exact Nat.not_le.mpr h ((needBytes_le_iff hlayout).mpr hnone)

/-- The first pixel in raster order that lacks a property one of them lacks. -/
theorem exists_first_not {P : Nat → Prop} (h : ¬ P q) : ∃ j, j ≤ q ∧ ¬ P j ∧ ∀ k, k < j → P k := by
  classical
  have hex : ∃ j, ¬ P j := ⟨q, h⟩
  exact ⟨Nat.find hex, Nat.find_min' hex h, Nat.find_spec hex, fun k hk => not_not.mp (Nat.find_min hex hk)⟩

end

/-! ## The pixel loop (R165, R175) -/

section
variable {i : Instr} {s : State} {pixel : Nat → Except OpError Rgba} {quad : Nat → Rgba}

/-- A decode whose every pixel is a quadruple outputs their stream. -/
theorem outputs_of_pixels
    (hexec : exec i s = finishOutput (decodePixels s.config.dstCap s.pixelCount pixel) s)
    (hfits : OutputFits s (4 * npix s)) (hpixel : ∀ q, q < npix s → pixel q = .ok (quad q)) :
    Outputs i s (4 * npix s) (streamByte quad) := by
  rw [Nat.mul_comm] at hfits
  obtain ⟨t, ht, hdone⟩ := outputs_of_chunks (f := fun q => quadBytes (quad q)) hexec
    (fun q hq => by rw [hpixel q hq]; rfl) (by decide) (fun _ => rfl) hfits
  refine ⟨t, ht, hdone.congr (Nat.mul_comm ..) fun k _ => ?_⟩
  rw [List.getD_eq_getElem?_getD, quadBytes_getElem? _ (Nat.mod_lt k (by decide)), Option.getD_some]
  rfl

/-- The first pixel that is an error is the decode's error. -/
theorem fails_of_firstPixel {q : Nat} {e : OpError}
    (hexec : exec i s = finishOutput (decodePixels s.config.dstCap s.pixelCount pixel) s)
    (hfits : OutputFits s (4 * npix s)) (hq : q < npix s) (hpixel : ∀ k, k < q → pixel k = .ok (quad k))
    (herror : pixel q = .error e) : Fails i s e.code.toNat e.info :=
  fails_of_firstError (m := 4) (f := fun q => quadBytes (quad q)) hexec hq (fun k hk => by rw [hpixel k hk]; rfl)
    (fun _ => rfl) (fits_mono (by omega) hfits) (by rw [herror]; rfl)

/-- A loop that delivers has met no error. -/
theorem emitLoop_items {cap : Option Nat} {item : Nat → Except OpError (List Byte)} {n j dp : Nat} {bs : List Byte}
    (h : emitLoop cap item n j dp = .ok bs) {k : Nat} (hj : j ≤ k) (hk : k < j + n) : ∃ chunk, item k = .ok chunk := by
  induction n generalizing j dp bs with
  | zero => omega
  | succ n ih =>
    simp only [emitLoop] at h
    split at h
    · cases h
    · rename_i chunk hchunk
      rcases Nat.eq_or_lt_of_le hj with rfl | hlater
      · exact ⟨chunk, hchunk⟩
      · split at h
        · split at h
          · cases h
          · rename_i rest hrest
            exact ih hrest hlater (by omega)
        · cases h

/-- The pixels of a pixel loop that delivers (R175). -/
theorem decodePixels_items {cap : Option Nat} {n : Nat} {bs : List Byte} (h : decodePixels cap n pixel = .ok bs) :
    ∃ quad : Nat → Rgba, ∀ q, q < n → pixel q = .ok (quad q) := by
  have hpixel (q : Nat) (hq : q < n) : ∃ c, pixel q = .ok c := by
    obtain ⟨chunk, hchunk⟩ := emitLoop_items h (Nat.zero_le q) (by omega)
    cases hc : pixel q with
    | ok c => exact ⟨c, rfl⟩
    | error e =>
      rw [hc] at hchunk
      cases hchunk
  have : Nonempty Rgba := ⟨quadOfWord 0⟩
  choose! quad hquad using hpixel
  exact ⟨quad, hquad⟩

end

/-! ## A format without a palette (R166, R167, R170 to R174) -/

/-- Pixel `q` is `quad q` where its bytes are present, and else a short read (R53). -/
structure ReadsPixels (present : Nat → Prop) (pixel : Nat → Except OpError Rgba) (quad : Nat → Rgba) : Prop where
  ok : ∀ q, present q → pixel q = .ok (quad q)
  short : ∀ q, ¬ present q → pixel q = .error .truncatedInput

section
variable {i : Instr} {fmt : ImageFormat}

/-- A missing pixel ends a decode in `TruncatedInput`, whichever it is: all are the same error. -/
theorem fails_of_missingPixel {s : State} {present : Nat → Prop} {pixel : View → Nat → Except OpError Rgba}
    {quad : Nat → Rgba} {q : Nat} (hexec : exec i s = decodePlain pixel s) (hfits : OutputFits s (4 * npix s))
    (hreads : ReadsPixels present (pixel s.srcView) quad) (hq : q < npix s) (hmissing : ¬ present q) :
    Fails i s 1 0 := by
  obtain ⟨j, hjq, hj, hbefore⟩ := exists_first_not hmissing
  exact fails_of_firstPixel (e := .truncatedInput) hexec hfits (by omega) (fun k hk => hreads.ok k (hbefore k hk))
    (hreads.short j hj)

/-- The frame of R165 for a format of `k` whole bytes to a pixel. -/
theorem decodesPlainly_of_reads {k : Nat} {pixel : View → Nat → Except OpError Rgba} {quad : State → Nat → Rgba}
    (hexec : ∀ s, exec i s = decodePlain pixel s) (hbits : bitsPerPixel fmt = 8 * k)
    (hreads : ∀ s, ReadsPixels (fun q => k * q + k ≤ s.srcLen.toNat) (pixel s.srcView) (quad s)) :
    DecodesPlainly i fmt quad := by
  intro s hfits
  have hlayout : bitsPerPixel fmt = 4 → LayoutStated s := fun h => by omega
  refine ⟨fun hneed => ?enough, fun hshort => ?short⟩
  case enough =>
    have hpresent := (needBytes_le_iff hlayout).mp hneed
    exact outputs_of_pixels (hexec s) hfits fun q hq => (hreads s).ok q ((pixelPresent_bytes hbits).mp (hpresent q hq))
  case short =>
    obtain ⟨q, hq, hmissing⟩ := exists_missing_of_lt_needBytes hlayout hshort
    exact fails_of_missingPixel (hexec s) hfits (hreads s) hq (mt (pixelPresent_bytes hbits).mpr hmissing)

/-- The frame of R165 for a 4-bit format, whose pixel is read at its half-byte position (R59, U10). -/
theorem decodesNibbles_of_reads {pixel : State → View → Nat → Except OpError Rgba} {quad : State → Nat → Rgba}
    (hexec : ∀ s, exec i s = decodePlain (fun src q => pixel s src (s.position q)) s) (hbits : bitsPerPixel fmt = 4)
    (hreads : ∀ s, ReadsPixels (fun p => p / 2 < s.srcLen.toNat) (pixel s s.srcView) (quad s)) :
    DecodesNibbles i fmt quad := by
  intro s hfits
  have hpixels : ReadsPixels (nibblePresent s) (fun q => pixel s s.srcView (s.position q))
      (fun q => quad s (s.position q)) := ⟨fun q => (hreads s).ok _, fun q => (hreads s).short _⟩
  have hmissing {q : Nat} (hq : q < npix s) (h : ¬ nibblePresent s q) : Fails i s 1 0 :=
    fails_of_missingPixel (hexec s) hfits hpixels hq h
  refine ⟨fun hlayout => ⟨fun hneed => ?enough, fun hshort => ?short⟩, fun hpresent => ?present,
    fun q hq hshort => hmissing hq (Nat.not_lt.mpr hshort)⟩
  case enough =>
    have hpixel (q : Nat) (hq : q < npix s) : pixel s s.srcView (s.position q) = .ok (quad s q) := by
      have hok := hpixels.ok q ((pixelPresent_nibbles hbits).mp ((needBytes_le_iff fun _ => hlayout).mp hneed q hq))
      rwa [position_stated hlayout hq] at hok ⊢
    exact outputs_of_pixels (hexec s) hfits hpixel
  case short =>
    obtain ⟨q, hq, hq'⟩ := exists_missing_of_lt_needBytes (fun _ => hlayout) hshort
    exact hmissing hq (mt (pixelPresent_nibbles hbits).mpr hq')
  case present => exact outputs_of_pixels (hexec s) hfits fun q hq => hpixels.ok q (hpresent q hq)

end

/-! ## The pixels of the seven formats -/

section
variable {present : Nat → Prop} {pixel : Nat → Except OpError Rgba} {quad quad' : Nat → Rgba} (s : State)

theorem ReadsPixels.congr (h : ReadsPixels present pixel quad) (hquad : ∀ q, quad q = quad' q) :
    ReadsPixels present pixel quad' :=
  funext hquad ▸ h

/-- A pixel of one byte, present as `pixelPresent_bytes` says with `k = 1`. -/
theorem read8_readsPixels (f : Byte → Rgba) :
    ReadsPixels (fun q => 1 * q + 1 ≤ s.srcLen.toNat) (fun q => (s.srcView.read8 q).map f)
      (fun q => f (s.byteAt .src q)) := by
  refine ⟨fun q h => ?_, fun q h => ?_⟩ <;> rw [Nat.one_mul] at h
  · rw [read8_ok (v := s.srcView) h]
    rfl
  · rw [read8_short (v := s.srcView) (Nat.not_lt.mp h)]
    rfl

/-- A pixel of one nibble. -/
theorem nibble_readsPixels (highFirst : Bool) (f : Byte → Rgba) :
    ReadsPixels (fun p => p / 2 < s.srcLen.toNat) (fun p => (s.srcView.nibble highFirst p).map f)
      (fun p => f (pixelNibble highFirst p (s.byteAt .src (p / 2)))) where
  ok p h := by
    rw [nibble_ok (v := s.srcView) h]
    rfl
  short p h := by
    rw [nibble_short (v := s.srcView) (Nat.not_lt.mp h)]
    rfl

theorem pixelRGBA32_readsPixels :
    ReadsPixels (fun q => 4 * q + 4 ≤ s.srcLen.toNat) (pixelRGBA32 s.srcView) (fun q =>
      Rgba.mk (s.byteAt .src (4 * q)) (s.byteAt .src (4 * q + 1)) (s.byteAt .src (4 * q + 2))
        (s.byteAt .src (4 * q + 3))) where
  ok q h := by
    rw [pixelRGBA32, read32_ok (v := s.srcView) h]
    exact congrArg Except.ok (quadOfWord_append ..)
  short q h := by
    rw [pixelRGBA32, read32_short (v := s.srcView) (Nat.not_le.mp h)]
    rfl

theorem pixelRGBA16_readsPixels :
    ReadsPixels (fun q => 2 * q + 2 ≤ s.srcLen.toNat) (pixelRGBA16 s.srcView)
      (fun q => unpackedQuad (halfNumber s .src (2 * q))) where
  ok q h := by
    rw [pixelRGBA16, read16_ok (v := s.srcView) h, Except.map, unpack16_eq_unpackedQuad, halfOfBytes_toNat]
    rfl
  short q h := by
    rw [pixelRGBA16, read16_short (v := s.srcView) (Nat.not_le.mp h)]
    rfl

/-- A grey pixel in the numbers of its two bytes. -/
theorem grayPixel_eq_grayNumber {c a : Byte} {m n : Nat} (hc : c = BitVec.ofNat 8 m) (ha : a = BitVec.ofNat 8 n) :
    grayPixel c a = grayNumber m n := by
  rw [hc, ha]
  rfl

theorem byte_eq_ofNat (b : Byte) : b = BitVec.ofNat 8 b.toNat := by
  rw [BitVec.ofNat_toNat, BitVec.setWidth_eq]

theorem pixelIA16_readsPixels :
    ReadsPixels (fun q => 2 * q + 2 ≤ s.srcLen.toNat) (pixelIA16 s.srcView)
      (fun q => grayNumber (srcNumber s (2 * q)) (srcNumber s (2 * q + 1))) where
  ok q h := by
    rw [pixelIA16, window_ok (v := s.srcView) h]
    exact congrArg Except.ok (grayPixel_eq_grayNumber (byte_eq_ofNat _) (byte_eq_ofNat _))
  short q h := by
    rw [pixelIA16, window_short (v := s.srcView) (Nat.not_le.mp h)]
    rfl

end

/-! ## Bytes and nibbles as numbers (R97) -/

theorem hiMask_eq_ofNat (b : Byte) : hiMask b = BitVec.ofNat 8 (b.toNat / 16 * 16) := by
  revert b
  decide

theorem loMask_toNat (b : Byte) : (loMask b).toNat = b.toNat % 16 :=
  Nat.and_two_pow_sub_one_eq_mod b.toNat 4

theorem shiftLeft_four_eq_ofNat (b : Byte) : b <<< 4 = BitVec.ofNat 8 (b.toNat * 16) := by
  apply BitVec.eq_of_toNat_eq
  simp [Nat.shiftLeft_eq]

/-- The three intensity bits of an IA4 nibble (R170). -/
theorem intensityIA4_eq_ofNat (n : Byte) : (n >>> 1) * 32#8 = BitVec.ofNat 8 (n.toNat / 2 * 32) := by
  apply BitVec.eq_of_toNat_eq
  simp [Nat.shiftRight_eq_div_pow]

/-- The alpha bit of an IA4 nibble (R170). -/
theorem alphaIA4_eq_ofNat (n : Byte) : (n &&& 1#8) * 255#8 = BitVec.ofNat 8 (n.toNat % 2 * 255) := by
  apply BitVec.eq_of_toNat_eq
  simp

/-- The nibble of a half-byte position in either order of the halves (R56, R59). -/
theorem pixelNibble_number (s : State) (highFirst : Bool) (p : Nat) :
    (pixelNibble highFirst p (s.byteAt .src (p / 2))).toNat =
      if highFirst then nibbleNumber s p else nibbleNumberLowFirst s p := by
  cases highFirst with
  | true => exact pixelNibble_toNat ..
  | false =>
    by_cases hp : p % 2 = 0
    · simp [pixelNibble, nibbleNumberLowFirst, hp, loMask_toNat]
    · simp [pixelNibble, nibbleNumberLowFirst, hp, Nat.shiftRight_eq_div_pow]

/-! ## The results of the seven formats -/

/-- Settles O31: the four bytes of a pixel, read as one word, are its channels. -/
theorem decodeRGBA32Result : Obligations.DecodeRGBA32Result :=
  fun _ _ => decodesPlainly_of_reads (k := 4) (fun _ => rfl) rfl pixelRGBA32_readsPixels

/-- Settles O32: the two bytes of a pixel, read as one 16-bit number, are its packed colour. -/
theorem decodeRGBA16Result : Obligations.DecodeRGBA16Result :=
  fun _ _ => decodesPlainly_of_reads (k := 2) (fun _ => rfl) rfl pixelRGBA16_readsPixels

/-- Settles O37: the two bytes of a pixel are its intensity and its alpha. -/
theorem decodeIA16Result : Obligations.DecodeIA16Result :=
  fun _ _ => decodesPlainly_of_reads (k := 2) (fun _ => rfl) rfl pixelIA16_readsPixels

/-- Settles O39: the byte of a pixel is its intensity and its alpha. -/
theorem decodeI8Result : Obligations.DecodeI8Result := by
  intro p psz
  refine decodesPlainly_of_reads (k := 1) (fun _ => rfl) rfl fun s => (read8_readsPixels s _).congr fun q => ?_
  exact grayPixel_eq_grayNumber (byte_eq_ofNat _) (byte_eq_ofNat _)

/-- Settles O36: masking keeps the high nibble times 16, shifting gives the low one times 16. -/
theorem decodeIA8Result : Obligations.DecodeIA8Result := by
  intro p psz
  refine decodesPlainly_of_reads (k := 1) (fun _ => rfl) rfl fun s => (read8_readsPixels s _).congr fun q => ?_
  refine grayPixel_eq_grayNumber (hiMask_eq_ofNat _) ?_
  rw [shiftLeft_four_eq_ofNat, loMask_toNat]
  rfl

/-- Settles O38: the nibble of a pixel, shifted to the top, is its intensity and its alpha (C1). -/
theorem decodeI4Result : Obligations.DecodeI4Result := by
  intro p psz
  refine decodesNibbles_of_reads (pixel := fun _ => pixelI4) (fun _ => rfl) rfl fun s =>
    (nibble_readsPixels s true _).congr fun q => ?_
  have hnibble := shiftLeft_four_eq_ofNat (pixelNibble true q (s.byteAt .src (q / 2)))
  rw [pixelNibble_number] at hnibble
  exact grayPixel_eq_grayNumber hnibble hnibble

/-- Settles O35: the nibble that the order of the halves picks splits into three bits of intensity and one of alpha. -/
theorem decodeIA4Result : Obligations.DecodeIA4Result := by
  intro p psz
  refine decodesNibbles_of_reads (pixel := fun s => pixelIA4 s.config.ia4HighFirst) (fun _ => rfl) rfl fun s =>
    (nibble_readsPixels s s.config.ia4HighFirst _).congr fun q => ?_
  have hnibble := pixelNibble_number s s.config.ia4HighFirst q
  rw [← hnibble]
  exact grayPixel_eq_grayNumber (intensityIA4_eq_ofNat _) (alphaIA4_eq_ofNat _)

end Sys2Proof.Machine

/-! # The indexed decodes (42_decode R168, R169, R175) -/

namespace Sys2Proof.Machine

/-- What a format with a palette of `n` entries makes of pixel `q`: a short read where it is missing, and else the entry
of its index, which must be in the table (R175). -/
structure LooksUp (n : Nat) (present : Nat → Prop) (index : Nat → Nat) (pixel : Nat → Except OpError Rgba)
    (entry : Nat → Rgba) : Prop where
  ok : ∀ q, present q → index q < n → pixel q = .ok (entry (index q))
  short : ∀ q, ¬ present q → pixel q = .error .truncatedInput
  outOfRange : ∀ q, present q → n ≤ index q → pixel q = .error .paletteIndexOutOfRange

section
variable {i : Instr} {psz : PaletteSize} {present : State → Nat → Prop} {index : State → Nat → Nat}

theorem decodeIndexed_short {s : State} (pixel : List Rgba → View → Nat → Except OpError Rgba)
    (hpal : s.palLen.toNat < 2 * entries s.config psz) :
    decodeIndexed pixel true psz s = finishOutput (.error .truncatedInput) s := by
  simp [decodeIndexed, tlutDecode_short (pal := s.palView) hpal]

/-- The frame of R165 for a format with a palette: once the table exists, the first pixel that is an error decides. -/
theorem decodesIndexed_of_looksUp {pixel : State → List Rgba → View → Nat → Except OpError Rgba}
    (hexec : ∀ s, exec i s = decodeIndexed (pixel s) true psz s)
    (hlook : ∀ s, LooksUp (entries s.config psz) (present s) (index s)
      (pixel s (paletteTable (entries s.config psz) s.palView) s.srcView) (paletteEntry s.palView)) :
    DecodesIndexed i psz present index := by
  intro s
  refine ⟨fun hshort => fails_of_error ((hexec s).trans (decodeIndexed_short _ hshort)), fun hpal hfits => ?_⟩
  have hloop := (hexec s).trans (decodeIndexed_palette (pixel s) hpal)
  have hentry (q : Nat) : present s q ∧ index s q < entries s.config psz →
      pixel s (paletteTable (entries s.config psz) s.palView) s.srcView q =
        .ok (unpackedQuad (halfNumber s .pal (2 * index s q))) := by
    rintro ⟨hpresent, hindex⟩
    rw [(hlook s).ok q hpresent hindex, paletteEntry_eq_unpackedQuad]
  refine ⟨fun hall => outputs_of_pixels hloop hfits fun q hq => hentry q (hall q hq),
    fun q hq hbefore => ⟨fun hmissing => ?missing, fun hpresent hrange => ?range⟩⟩
  case missing =>
    exact fails_of_firstPixel (e := .truncatedInput) hloop hfits hq (fun k hk => hentry k (hbefore k hk))
      ((hlook s).short q hmissing)
  case range =>
    exact fails_of_firstPixel (e := .paletteIndexOutOfRange) hloop hfits hq (fun k hk => hentry k (hbefore k hk))
      ((hlook s).outOfRange q hpresent hrange)

/-- Where every index is in the table only the number of bytes decides (R58, R168, R169). -/
theorem DecodesIndexed.of_index_lt {fmt : ImageFormat} {s : State} (h : DecodesIndexed i psz present index)
    (hpal : 2 * entries s.config psz ≤ s.palLen.toNat) (hfits : OutputFits s (4 * npix s))
    (hpresent : ∀ q, PixelPresent fmt s q ↔ present s q) (hlayout : bitsPerPixel fmt = 4 → LayoutStated s)
    (hindex : ∀ q, index s q < entries s.config psz) :
    (needBytes fmt (npix s) ≤ s.srcLen.toNat → Outputs i s (4 * npix s)
      (streamByte (fun q => unpackedQuad (halfNumber s .pal (2 * index s q))))) ∧
    (s.srcLen.toNat < needBytes fmt (npix s) → Fails i s 1 0) := by
  obtain ⟨houtput, hfirst⟩ := (h s).2 hpal hfits
  refine ⟨fun hneed => houtput fun q hq => ⟨(hpresent q).mp ((needBytes_le_iff hlayout).mp hneed q hq), hindex q⟩,
    fun hshort => ?_⟩
  obtain ⟨q, hq, hmissing⟩ := exists_missing_of_lt_needBytes hlayout hshort
  obtain ⟨j, hjq, hj, hbefore⟩ := exists_first_not (mt (hpresent q).mpr hmissing)
  exact (hfirst j (by omega) fun k hk => ⟨hbefore k hk, hindex k⟩).1 hj

theorem Outputs.congr {s : State} {n : Nat} {f g : Nat → Byte} (h : Outputs i s n f) (hfg : ∀ k, k < n → f k = g k) :
    Outputs i s n g :=
  have ⟨t, ht, hdone⟩ := h
  ⟨t, ht, hdone.congr rfl hfg⟩

end

section
variable {s : State} {n p : Nat} {pal : View}

theorem pixelCI4_short (h : s.srcLen.toNat ≤ p / 2) (tbl : List Rgba) :
    pixelCI4 tbl s.srcView p = .error .truncatedInput := by
  rw [pixelCI4, nibble_short (v := s.srcView) h]

theorem pixelCI4_outOfRange (hp : p / 2 < s.srcLen.toNat) (hn : n ≤ nibbleNumber s p) :
    pixelCI4 (paletteTable n pal) s.srcView p = .error .paletteIndexOutOfRange := by
  rw [pixelCI4, nibble_ok (v := s.srcView) hp]
  exact tlutLookup_paletteTable_outOfRange (hn.trans_eq (pixelNibble_number s true p).symm)

theorem pixelCI8_short (h : s.srcLen.toNat ≤ p) (tbl : List Rgba) :
    pixelCI8 tbl s.srcView p = .error .truncatedInput := by
  rw [pixelCI8, read8_short (v := s.srcView) h]

theorem pixelCI8_outOfRange (hp : p < s.srcLen.toNat) (hn : n ≤ srcNumber s p) :
    pixelCI8 (paletteTable n pal) s.srcView p = .error .paletteIndexOutOfRange := by
  rw [pixelCI8, read8_ok (v := s.srcView) hp]
  exact tlutLookup_paletteTable_outOfRange hn

theorem nibbleNumber_lt (s : State) (p : Nat) : nibbleNumber s p < 16 := by
  have hbyte := (s.byteAt .src (p / 2)).isLt
  unfold nibbleNumber
  split <;> omega

end

theorem decCI4_decodesIndexed (psz : PaletteSize) :
    DecodesIndexed (.decCI4 true psz) psz nibblePresent nibbleIndex :=
  decodesIndexed_of_looksUp (pixel := fun s tbl src q => pixelCI4 tbl src (s.position q)) (fun _ => rfl) fun _ =>
    ⟨fun _ => pixelCI4_ok, fun _ h => pixelCI4_short (Nat.not_lt.mp h) _, fun _ => pixelCI4_outOfRange⟩

theorem decCI8_decodesIndexed (psz : PaletteSize) :
    DecodesIndexed (.decCI8 true psz) psz bytePresent srcNumber :=
  decodesIndexed_of_looksUp (pixel := fun _ => pixelCI8) (fun _ => rfl) fun _ =>
    ⟨fun _ => pixelCI8_ok, fun _ h => pixelCI8_short (Nat.not_lt.mp h) _, fun _ => pixelCI8_outOfRange⟩

/-- Settles O33: a nibble is below 16, so with 16 entries only a missing byte is an error, and where the layout is stated
pixel `q` is nibble `q`. -/
theorem decodeCI4Result : Obligations.DecodeCI4Result := by
  refine ⟨fun psz s => fails_of_error (e := .missingPalette) rfl, decCI4_decodesIndexed,
    fun psz => by cases psz <;> decide, fun psz s hpal hfits hentries hlayout => ?_⟩
  obtain ⟨houtput, hshort⟩ := (decCI4_decodesIndexed psz).of_index_lt (fmt := .ci4) hpal hfits
    (fun _ => pixelPresent_nibbles rfl) (fun _ => hlayout) fun _ => (nibbleNumber_lt s _).trans_le hentries
  refine ⟨fun hneed => (houtput hneed).congr fun k hk => ?_, hshort⟩
  rw [streamByte, streamByte, nibbleIndex, position_stated hlayout (by omega)]

/-- Settles O34: a byte is below 256, so with 256 entries only a missing byte is an error. -/
theorem decodeCI8Result : Obligations.DecodeCI8Result := by
  refine ⟨fun psz s => fails_of_error (e := .missingPalette) rfl, decCI8_decodesIndexed,
    fun psz s hpal hfits hentries => ?_⟩
  refine (decCI8_decodesIndexed psz).of_index_lt (fmt := .ci8) hpal hfits (fun q => ?_) (fun h => nomatch h)
    fun q => (s.byteAt .src q).isLt.trans_le hentries
  rw [pixelPresent_bytes (k := 1) rfl, Nat.one_mul]
  rfl

end Sys2Proof.Machine

/-! # What a successful decode leaves (42_decode R177, R178) -/

namespace Sys2Proof.Machine

section
variable {i : Instr} {s t : State}

/-- A successful decode without a palette has read every pixel and outputs their stream. -/
theorem decodePlain_done {pixel : View → Nat → Except OpError Rgba} (hexec : exec i s = decodePlain pixel s)
    (h : exec i s = .next t) (hdone : t.status = 1#32) :
    ∃ quad : Nat → Rgba, (∀ q, q < npix s → pixel s.srcView q = .ok (quad q)) ∧
      OutputDone s t (4 * npix s) (streamByte quad) := by
  rcases finishOutput_next (hexec.symm.trans h) with ⟨bs, hbs, rfl⟩ | ⟨e, _, rfl⟩
  · obtain ⟨quad, hquad⟩ := decodePixels_items hbs
    have hlen : bs.length = npix s * 4 :=
      emitLoop_length (fun k chunk hk => by obtain ⟨c, rfl⟩ := map_ok hk; rfl) hbs
    have hfits : OutputFits s (4 * npix s) := by
      rw [Nat.mul_comm, ← hlen]
      exact emitAll_fits hbs
    obtain ⟨t, ht, hout⟩ := outputs_of_pixels hexec hfits hquad
    cases h.symm.trans ht
    exact ⟨quad, hquad, hout⟩
  · exact absurd hdone (errStatus_ne_done e)

/-- Channel `j` of pixel `q` of the output (R92). -/
theorem OutputDone.byteAt_channel {n q j : Nat} {quad : Nat → Rgba} (h : OutputDone s t (4 * n) (streamByte quad))
    (hq : q < n) (hj : j < 4) : t.byteAt .dst (4 * q + j) = channel (quad q) j := by
  have hdiv : (4 * q + j) / 4 = q := by omega
  have hmod : (4 * q + j) % 4 = j := by omega
  rw [h.byteAt (by omega), streamByte, hdiv, hmod]

/-- R178 of one pixel of a format. -/
def MeetsGrayRule (fmt : ImageFormat) (c : Rgba) : Prop :=
  (fmt ∈ [ImageFormat.i4, .i8, .ia4, .ia8, .ia16] → c.r.toNat = c.g.toNat ∧ c.g.toNat = c.b.toNat) ∧
  (fmt ∈ [ImageFormat.i4, .i8] → c.a.toNat = c.r.toNat) ∧
  (fmt ∈ [ImageFormat.i4, .ia8] → c.r.toNat % 16 = 0 ∧ c.a.toNat % 16 = 0) ∧
  (fmt = .ia4 → c.r.toNat % 32 = 0)

/-- R178 of a successful decode whose every pixel meets it. -/
theorem grayStream_of_pixels {fmt : ImageFormat} {pixel : View → Nat → Except OpError Rgba} {q : Nat}
    (hexec : exec i s = decodePlain pixel s) (h : exec i s = .next t) (hdone : t.status = 1#32) (hq : q < npix s)
    (hgray : ∀ c, pixel s.srcView q = .ok c → MeetsGrayRule fmt c) :
    MeetsGrayRule fmt (Rgba.mk (t.byteAt .dst (4 * q)) (t.byteAt .dst (4 * q + 1)) (t.byteAt .dst (4 * q + 2))
      (t.byteAt .dst (4 * q + 3))) := by
  obtain ⟨quad, hquad, hout⟩ := decodePlain_done hexec h hdone
  have hr : t.byteAt .dst (4 * q) = (quad q).r := hout.byteAt_channel (j := 0) hq (by decide)
  rw [hr, hout.byteAt_channel hq (by decide), hout.byteAt_channel hq (by decide), hout.byteAt_channel hq (by decide)]
  exact hgray _ (hquad q hq)

end

theorem shiftLeft_four_mod (b : Byte) : (b <<< 4).toNat % 16 = 0 := by
  rw [shiftLeft_four_eq_ofNat, BitVec.toNat_ofNat]
  omega

theorem hiMask_mod (b : Byte) : (hiMask b).toNat % 16 = 0 := by
  rw [hiMask_eq_ofNat, BitVec.toNat_ofNat]
  omega

theorem intensityIA4_mod (n : Byte) : ((n >>> 1) * 32#8).toNat % 32 = 0 := by
  rw [intensityIA4_eq_ofNat, BitVec.toNat_ofNat]
  omega

/-- R178 of a pixel with equal colour channels is what it says of its intensity and its alpha. -/
theorem grayPixel_meetsGrayRule {fmt : ImageFormat} {c a : Byte} (halpha : fmt ∈ [ImageFormat.i4, .i8] → a = c)
    (hlow : fmt ∈ [ImageFormat.i4, .ia8] → c.toNat % 16 = 0 ∧ a.toNat % 16 = 0)
    (hfive : fmt = .ia4 → c.toNat % 32 = 0) : MeetsGrayRule fmt (grayPixel c a) :=
  ⟨fun _ => ⟨rfl, rfl⟩, fun h => congrArg BitVec.toNat (halpha h), hlow, hfive⟩

/-- Settles O45: a grey format's pixel is a `grayPixel`, whose intensity and alpha have the listed bits clear. -/
theorem grayStreams : Obligations.GrayStreams := by
  intro i fmt s t q hi h hdone hq
  obtain ⟨p, psz, rfl⟩ := eq_decInstr_of_decodedFormat hi
  cases fmt with
  | i4 =>
    refine grayStream_of_pixels (pixel := fun src p => pixelI4 src (s.position p)) rfl h hdone hq fun c hc => ?_
    obtain ⟨n, rfl⟩ := map_ok hc
    exact grayPixel_meetsGrayRule (fun _ => rfl) (fun _ => ⟨shiftLeft_four_mod n, shiftLeft_four_mod n⟩) nofun
  | i8 =>
    refine grayStream_of_pixels (pixel := pixelI8) rfl h hdone hq fun c hc => ?_
    obtain ⟨b, rfl⟩ := map_ok hc
    exact grayPixel_meetsGrayRule (fun _ => rfl) (by simp) nofun
  | ia4 =>
    refine grayStream_of_pixels (pixel := fun src p => pixelIA4 s.config.ia4HighFirst src (s.position p)) rfl h hdone hq
      fun c hc => ?_
    obtain ⟨n, rfl⟩ := map_ok hc
    exact grayPixel_meetsGrayRule (by simp) (by simp) fun _ => intensityIA4_mod n
  | ia8 =>
    refine grayStream_of_pixels (pixel := pixelIA8) rfl h hdone hq fun c hc => ?_
    obtain ⟨b, rfl⟩ := map_ok hc
    exact grayPixel_meetsGrayRule (by simp) (fun _ => ⟨hiMask_mod b, shiftLeft_four_mod _⟩) nofun
  | ia16 =>
    refine grayStream_of_pixels (pixel := pixelIA16) rfl h hdone hq fun c hc => ?_
    obtain ⟨b, rfl⟩ := map_ok hc
    exact grayPixel_meetsGrayRule (by simp) (by simp) nofun
  | ci4 | ci8 | rgba16 | rgba32 => simp

/-- A decode has an output of four bytes per pixel (R165). -/
theorem outputLength_of_decodedFormat {i : Instr} {fmt : ImageFormat} (h : decodedFormat i = some fmt) (s : State) :
    returnsResult i = false ∧ outputLength i s = 4 * npix s := by
  obtain ⟨p, psz, rfl⟩ := eq_decInstr_of_decodedFormat h
  cases fmt <;> exact ⟨rfl, rfl⟩

/-- Settles O46: a decode completes an output of four bytes per pixel or raises an error, and neither writes the
dimensions. -/
theorem decodeOutputLength : Obligations.DecodeOutputLength := by
  intro i fmt s t hi h
  obtain ⟨hnone, hlength⟩ := outputLength_of_decodedFormat hi s
  have hending := exec_outputLength hnone h
  rw [hlength] at hending
  rcases hending with ⟨bs, hlen, rfl⟩ | ⟨e, rfl⟩
  · obtain ⟨hstatus, -, hdstLen, houtput, -, -⟩ := completeOutput_done bs s
    rw [hlen] at hdstLen houtput
    refine ⟨fun _ => ⟨fun hbound => ?_, fun k hk => ?_⟩, fun hfail => absurd hstatus hfail, rfl, rfl⟩
    · rw [hdstLen hbound, npix, Nat.mul_assoc]
    · rw [houtput k hk]
      rfl
  · exact ⟨fun hdone => absurd hdone (errStatus_ne_done e), fun _ => rfl, rfl, rfl⟩

end Sys2Proof.Machine

/-! # Encode to native bytes (43_encode R201 to R221)

A group arm enters through one equation: what its `out` makes of the group at an offset, in the arithmetic of the rule
(`encodesGroups_of_chunks`, `encodesGroups_of_byte`). A catch-all is one error, and its word is `encWord` as a number. -/

namespace Sys2Proof.Machine

/-! ## The two loops (R201) -/

section
variable {i : Instr} {s : State}

/-- A verbatim arm outputs SRC whole. -/
theorem encodeVerbatim_outputs (hexec : exec i s = encodeVerbatim s) (hfits : OutputFits s s.srcLen.toNat) :
    Outputs i s s.srcLen.toNat (s.byteAt .src) :=
  outputs_of_emitVerbatim (v := s.srcView) hexec rfl (fun _ _ => rfl) hfits

/-- A group arm outputs what its rule makes of every whole group. -/
theorem encodesGroups_of_chunks {k m : Nat} {out : (Nat → Byte) → List Byte} {f : Nat → Nat → Byte}
    (hexec : exec i s = encodeGroups k out s) (hm : 0 < m)
    (hout : ∀ o, out (fun t => s.byteAt .src (o + t)) = (List.range m).map (f o)) : EncodesGroups i s k m f := by
  intro hfits
  refine (outputs_of_chunks hexec (fun _ hj => groupBytes_item hj) hm (fun j => ?_) hfits).congr fun n _ => ?_
  · exact (congrArg List.length (hout (k * j))).trans (by simp)
  · simp [hout, Nat.mod_lt n hm]

/-- A group arm that emits one byte per group. -/
theorem encodesGroups_of_byte {k : Nat} {out : (Nat → Byte) → List Byte} {f : Nat → Byte}
    (hexec : exec i s = encodeGroups k out s) (hout : ∀ o, out (fun t => s.byteAt .src (o + t)) = [f o]) :
    EncodesGroups i s k 1 (fun o _ => f o) :=
  encodesGroups_of_chunks hexec Nat.one_pos hout

end

/-! ## The folds in the arithmetic of the rules (R205, R210, R214, R218) -/

theorem ofNat_mod_byte (n : Nat) : BitVec.ofNat 8 (n % 256) = BitVec.ofNat 8 n :=
  BitVec.eq_of_toNat_eq (by simp)

theorem hiMask_toNat (b : Byte) : (hiMask b).toNat = b.toNat / 16 * 16 := by
  rw [hiMask_eq_ofNat, BitVec.toNat_ofNat]
  omega

theorem shiftRight_four_toNat (b : Byte) : (b >>> 4).toNat = b.toNat / 16 := by
  rw [BitVec.toNat_ushiftRight, Nat.shiftRight_eq_div_pow]

/-- A masked high nibble beside a low nibble. -/
theorem hiMask_or_eq_ofNat (b : Byte) {x : Byte} (hx : x.toNat < 16) :
    hiMask b ||| x = BitVec.ofNat 8 (b.toNat / 16 * 16 + x.toNat) := by
  have hsum := toNat_or_eq_add (k := 4) (x := hiMask b) (y := x) (by rw [hiMask_toNat]; omega) hx
  rw [byte_eq_ofNat (hiMask b ||| x), hsum, hiMask_toNat]

/-- A nibble shifted to the top beside another nibble. -/
theorem shiftLeft_four_or_eq_ofNat {x y : Byte} (hx : x.toNat < 16) (hy : y.toNat < 16) :
    (x <<< 4) ||| y = BitVec.ofNat 8 (x.toNat * 16 + y.toNat) := by
  have hshift : (x <<< 4).toNat = x.toNat * 16 := by
    rw [shiftLeft_four_eq_ofNat, BitVec.toNat_ofNat]
    omega
  have hsum := toNat_or_eq_add (k := 4) (x := x <<< 4) (y := y) (by rw [hshift]; omega) hy
  rw [byte_eq_ofNat (x <<< 4 ||| y), hsum, hshift]

theorem foldIntensity_eq_foldNumber (i0 i1 : Byte) : foldIntensity i0 i1 = [foldNumber i0.toNat i1.toNat] := by
  have hlow := shiftRight_four_toNat i1
  rw [foldIntensity, hiMask_or_eq_ofNat i0 (by omega), hlow, foldNumber]

theorem foldIndex_eq_indexFoldNumber (first second : Byte) :
    foldIndex first second = [indexFoldNumber first.toNat second.toNat] := by
  rw [foldIndex, indexFoldNumber, BitVec.ofNat_or, ← byte_eq_ofNat, ofNat_mod_byte, shiftLeft_four_eq_ofNat]

/-- R214: the shift leaves bit 0 to the threshold. -/
theorem nibbleIA4_toNat (g a : Byte) : (nibbleIA4 g a).toNat = ia4Number g.toNat a.toNat := by
  have hgray : ((g >>> 5) <<< 1).toNat = g.toNat / 32 * 2 := by
    rw [BitVec.toNat_shiftLeft, BitVec.toNat_ushiftRight, Nat.shiftRight_eq_div_pow, Nat.shiftLeft_eq]
    omega
  have halpha : (if a.toNat > 127 then 1#8 else 0#8).toNat = if 127 < a.toNat then 1 else 0 := by
    split <;> rfl
  have hbit : (if a.toNat > 127 then 1#8 else 0#8).toNat < 2 ^ 1 := by
    split <;> decide
  rw [nibbleIA4, toNat_or_eq_add (k := 1) (by omega) hbit, hgray, halpha, ia4Number]

theorem nibbleIA4_lt (g a : Byte) : (nibbleIA4 g a).toNat < 16 := by
  rw [nibbleIA4_toNat]
  unfold ia4Number
  split <;> omega

/-- The bytes of a 16-bit value, high byte first (R55). -/
theorem halfBytes_eq_ofNat (v : Half) :
    halfBytes v = [BitVec.ofNat 8 (v.toNat / 256), BitVec.ofNat 8 (v.toNat % 256)] := by
  rw [halfBytes, BitVec.extractLsb', BitVec.extractLsb', Nat.shiftRight_eq_div_pow, ofNat_mod_byte]
  rfl

theorem luma_eq_srcLuma (s : State) (o : Nat) :
    luma s.config.lumaRule (s.byteAt .src o) (s.byteAt .src (o + 1)) (s.byteAt .src (o + 2)) =
      BitVec.ofNat 8 (srcLuma s o) := by
  rw [srcLuma, ← luma_toNat, ← byte_eq_ofNat]

/-! ## The arms (R202 to R220) -/

section
variable (s : State)

/-- R203. -/
theorem encRGBA16RGBA8_encodes : EncodesGroups .encRGBA16RGBA8 s 4 2 (fun o j =>
    let p := packedNumber (srcNumber s o) (srcNumber s (o + 1)) (srcNumber s (o + 2)) (srcNumber s (o + 3))
    if j = 0 then BitVec.ofNat 8 (p / 256) else BitVec.ofNat 8 (p % 256)) := by
  refine encodesGroups_of_chunks (out := outRGBA16RGBA8) rfl (by decide) fun o => ?_
  rw [outRGBA16RGBA8, halfBytes_eq_ofNat, pack16_toNat]
  rfl

/-- R205. -/
theorem encI4G8_encodes :
    EncodesGroups .encI4G8 s 2 1 (fun o _ => foldNumber (srcNumber s o) (srcNumber s (o + 1))) :=
  encodesGroups_of_byte (out := outI4G8) rfl fun _ => foldIntensity_eq_foldNumber ..

/-- R206. -/
theorem encI4GA8_encodes :
    EncodesGroups .encI4GA8 s 4 1 (fun o _ => foldNumber (srcNumber s o) (srcNumber s (o + 2))) :=
  encodesGroups_of_byte (out := outI4GA8) rfl fun _ => foldIntensity_eq_foldNumber ..

/-- R207. -/
theorem encI4RGB8_encodes :
    EncodesGroups .encI4RGB8 s 6 1 (fun o _ => foldNumber (srcLuma s o) (srcLuma s (o + 3))) := by
  refine encodesGroups_of_byte (out := outI4RGB8 s.config.lumaRule) rfl fun o => ?_
  rw [outI4RGB8, foldIntensity_eq_foldNumber, luma_toNat, luma_toNat]
  rfl

/-- R208. -/
theorem encI4RGBA8_encodes :
    EncodesGroups .encI4RGBA8 s 8 1 (fun o _ =>
      foldNumber (srcLuma s o) (if s.config.i4RgbaDoubleRead then srcLuma s o else srcLuma s (o + 4))) := by
  refine encodesGroups_of_byte (out := outI4RGBA8 s.config.lumaRule s.config.i4RgbaDoubleRead) rfl fun o => ?_
  rw [outI4RGBA8, foldIntensity_eq_foldNumber, apply_ite BitVec.toNat, luma_toNat, luma_toNat]
  rfl

/-- R210: the reading is the configuration's. -/
theorem exec_encI8G4 {mode : I8G4Mode} (h : s.config.encI8G4Mode = mode) :
    exec .encI8G4 s = encodeGroups (strideI8G4 mode) (outI8G4 mode) s := by
  subst h
  rfl

/-- R210, the reading that shifts. -/
theorem encI8G4_encodes_shift (h : s.config.encI8G4Mode = .expandShift) :
    EncodesGroups .encI8G4 s 1 2 (fun o j =>
      if j = 0 then BitVec.ofNat 8 (srcNumber s o / 16 * 16) else BitVec.ofNat 8 (srcNumber s o % 16 * 16)) := by
  refine encodesGroups_of_chunks (exec_encI8G4 s h) (by decide) fun o => ?_
  rw [outI8G4, hiMask_eq_ofNat, shiftLeft_four_eq_ofNat, loMask_toNat]
  rfl

/-- R210, the reading that replicates: a nibble beside itself is 17 times it. -/
theorem encI8G4_encodes_replicate (h : s.config.encI8G4Mode = .expandReplicate) :
    EncodesGroups .encI8G4 s 1 2 (fun o j =>
      if j = 0 then BitVec.ofNat 8 (srcNumber s o / 16 * 17) else BitVec.ofNat 8 (srcNumber s o % 16 * 17)) := by
  refine encodesGroups_of_chunks (exec_encI8G4 s h) (by decide) fun o => ?_
  have hhigh := shiftRight_four_toNat (s.byteAt .src (o + 0))
  have hlow := loMask_toNat (s.byteAt .src (o + 0))
  rw [outI8G4, hiMask_or_eq_ofNat _ (by omega), shiftLeft_four_or_eq_ofNat (by omega) (by omega), hhigh, hlow,
    ← Nat.mul_succ, ← Nat.mul_succ]
  rfl

/-- R210, the reading that folds. -/
theorem encI8G4_encodes_fold (h : s.config.encI8G4Mode = .fold) :
    EncodesGroups .encI8G4 s 2 1 (fun o _ => indexFoldNumber (srcNumber s o) (srcNumber s (o + 1))) :=
  encodesGroups_of_byte (exec_encI8G4 s h) fun _ => foldIndex_eq_indexFoldNumber ..

/-- R211. -/
theorem encI8GA8_encodes : EncodesGroups .encI8GA8 s 2 1 (fun o _ => s.byteAt .src o) :=
  encodesGroups_of_byte (out := outI8GA8) rfl fun _ => rfl

/-- R212. -/
theorem encI8RGB8_encodes : EncodesGroups .encI8RGB8 s 3 1 (fun o _ => BitVec.ofNat 8 (srcLuma s o)) :=
  encodesGroups_of_byte (out := outI8RGB8 s.config.lumaRule) rfl fun o => congrArg (fun b => [b]) (luma_eq_srcLuma s o)

/-- R213. -/
theorem encI8RGBA8_encodes : EncodesGroups .encI8RGBA8 s 4 1 (fun o _ => BitVec.ofNat 8 (srcLuma s o)) :=
  encodesGroups_of_byte (out := outI8RGBA8 s.config.lumaRule) rfl fun o => congrArg (fun b => [b]) (luma_eq_srcLuma s o)

/-- R214: the first pixel's nibble is the half that `IA4_HIGH_FIRST` says. -/
theorem encIA4GA8_encodes : EncodesGroups .encIA4GA8 s 4 1 (fun o _ =>
    let n0 := ia4Number (srcNumber s o) (srcNumber s (o + 1))
    let n1 := ia4Number (srcNumber s (o + 2)) (srcNumber s (o + 3))
    if s.config.ia4HighFirst then BitVec.ofNat 8 (n0 * 16 + n1) else BitVec.ofNat 8 (n1 * 16 + n0)) := by
  refine encodesGroups_of_byte (out := outIA4GA8 s.config.ia4HighFirst) rfl fun o => ?_
  have hpair (g0 a0 g1 a1 : Byte) : (nibbleIA4 g0 a0 <<< 4) ||| nibbleIA4 g1 a1 =
      BitVec.ofNat 8 (ia4Number g0.toNat a0.toNat * 16 + ia4Number g1.toNat a1.toNat) := by
    rw [← nibbleIA4_toNat, ← nibbleIA4_toNat]
    exact shiftLeft_four_or_eq_ofNat (nibbleIA4_lt g0 a0) (nibbleIA4_lt g1 a1)
  cases hhalf : s.config.ia4HighFirst <;> exact congrArg (fun b => [b]) (hpair ..)

/-- R215: the grey byte and the alpha nibble meet bit by bit. -/
theorem encIA8GA8_encodes : EncodesGroups .encIA8GA8 s 2 1 (fun o _ =>
    let g := if s.config.ia8EncMaskGray then srcNumber s o / 16 * 16 else srcNumber s o
    BitVec.ofNat 8 (g ||| srcNumber s (o + 1) / 16)) := by
  refine encodesGroups_of_byte (out := outIA8GA8 s.config.ia8EncMaskGray) rfl fun o => ?_
  have halpha : BitVec.ofNat 8 (srcNumber s (o + 1) / 16) = s.byteAt .src (o + 1) >>> 4 := by
    rw [srcNumber, ← shiftRight_four_toNat, ← byte_eq_ofNat]
  dsimp only
  rw [BitVec.ofNat_or, halpha, apply_ite (BitVec.ofNat 8), srcNumber, ← hiMask_eq_ofNat, ← byte_eq_ofNat]
  rfl

/-- R218. -/
theorem encCI4IDX8_encodes :
    EncodesGroups .encCI4IDX8 s 2 1 (fun o _ => indexFoldNumber (srcNumber s o) (srcNumber s (o + 1))) :=
  encodesGroups_of_byte (out := outCI4IDX8) rfl fun _ => foldIndex_eq_indexFoldNumber ..

/-- R220. -/
theorem encCI8IDX4_encodes :
    EncodesGroups .encCI8IDX4 s 2 1 (fun o _ => indexFoldNumber (srcNumber s o) (srcNumber s (o + 1))) :=
  encodesGroups_of_byte (out := outCI8IDX4) rfl fun _ => foldIndex_eq_indexFoldNumber ..

end

/-- Settles O47: each of the six is `encodeVerbatim`. -/
theorem verbatimEncodes : Obligations.VerbatimEncodes := by
  refine ⟨rfl, rfl, rfl, rfl, rfl, rfl, fun s hfits => ?_⟩
  refine ⟨?_, ?_, ?_, ?_, ?_, ?_⟩ <;> exact encodeVerbatim_outputs rfl hfits

/-- Settles O48: the packed colour of a group's four bytes, high byte first. -/
theorem encodeRGBA16Result : Obligations.EncodeRGBA16Result :=
  ⟨rfl, encRGBA16RGBA8_encodes⟩

/-- Settles O49: each arm folds two intensities, a grey byte or the formula on a triple. -/
theorem encodeI4Results : Obligations.EncodeI4Results :=
  ⟨rfl, rfl, rfl, rfl, fun s => ⟨encI4G8_encodes s, encI4GA8_encodes s, encI4RGB8_encodes s, encI4RGBA8_encodes s⟩⟩

/-- Settles O50: an arm keeps the grey byte, takes the intensity of a triple, or treats nibbles as its reading says. -/
theorem encodeI8Results : Obligations.EncodeI8Results :=
  ⟨rfl, rfl, rfl, rfl, fun s => ⟨encI8G4_encodes_shift s, encI8G4_encodes_replicate s, encI8G4_encodes_fold s,
    encI8GA8_encodes s, encI8RGB8_encodes s, encI8RGBA8_encodes s⟩⟩

/-- Settles O51: an IA4 pixel is a nibble of grey and threshold, an IA8 byte the grey byte with the alpha nibble in it. -/
theorem encodeIAResults : Obligations.EncodeIAResults :=
  ⟨rfl, rfl, fun s => ⟨encIA4GA8_encodes s, encIA8GA8_encodes s⟩⟩

/-- Settles O52: both arms are one fold of two bytes. -/
theorem encodeIndexFolds : Obligations.EncodeIndexFolds :=
  ⟨rfl, rfl, fun s => ⟨encCI4IDX8_encodes s, encCI8IDX4_encodes s⟩⟩

/-! ## The catch-alls (R221, R263) -/

section
variable (fmt : ImageFormat) (ctype : ColorType) (depth : BitVec 5)

/-- R221: the word of a format and a shape as the number of its fields. -/
theorem encWord_eq_ofNat : encWord fmt ctype depth = BitVec.ofNat 32
    (0x30000000 + fmt.code.toNat * 2 ^ 24 + ctype.code.toNat * 2 ^ 21 + depth.toNat * 2 ^ 16) := by
  apply BitVec.eq_of_toNat_eq
  simp only [encWord, commandWord, toNat_append_eq_add, BitVec.ofNat_eq_ofNat, BitVec.toNat_ofNat]
  omega

/-- R263: the shape as the number of its two fields. -/
theorem shapeWord_eq_ofNat : shapeWord ctype depth = BitVec.ofNat 32 (ctype.code.toNat * 32 + depth.toNat) := by
  apply BitVec.eq_of_toNat_eq
  simp only [shapeWord, toNat_append_eq_add, BitVec.toNat_ofNat]
  omega

theorem exec_encOther (s : State) : exec (encOther fmt ctype depth) s = encodeRefused ctype depth s := by
  cases fmt <;> rfl

theorem encOther_fails (s : State) :
    Fails (encOther fmt ctype depth) s 3 (BitVec.ofNat 32 (ctype.code.toNat * 32 + depth.toNat)) := by
  rw [← shapeWord_eq_ofNat]
  exact fails_of_error (e := .invalidSourceShape ctype depth) (exec_encOther fmt ctype depth s)

/-- R221: a shape outside the whitelist selects the catch-all of its format. -/
theorem decode_encWord_other (h : accepted fmt ctype depth = false) :
    decode (encWord fmt ctype depth) = .ok (encOther fmt ctype depth) := by
  have hother := (encInstr_eq_encOther_iff fmt ctype depth).mpr (by rw [wellFormed_encOther, h]; rfl)
  rw [decode_encWord, hother]

end

/-- Settles O53: every such word decodes to a catch-all, and a catch-all is one error, whatever the state. -/
theorem otherShapesAreRefused : Obligations.OtherShapesAreRefused := by
  refine ⟨fun fmt ctype depth h => ⟨encOther fmt ctype depth, ?word, encOther_fails fmt ctype depth⟩,
    fun ctype depth s => ?_⟩
  case word =>
    rw [← encWord_eq_ofNat]
    exact decode_encWord_other fmt ctype depth h
  have hfails (fmt : ImageFormat) := encOther_fails fmt ctype depth s
  exact ⟨hfails .i4, hfails .i8, hfails .ia4, hfails .ia8, hfails .ia16, hfails .ci4, hfails .ci8, hfails .rgba16,
    hfails .rgba32⟩

end Sys2Proof.Machine

/-! # Round trips (43_encode R222)

`Reproduces` of an encode that succeeds is an equation of bytes (`Outputs.reproduces_iff`). The encode's bytes are those
of its arm, and what it reads is named by the decode's pixels: `HoldsStream.channel`, `HoldsGray.gray` and
`HoldsGrayAlpha.grayAlpha` on the output that `DecodesPlainly.done` or `DecodesNibbles.done` gives. -/

namespace Sys2Proof.Machine

/-! ## What a successful decode of a whole image has left -/

section
variable {dec : Instr} {fmt : ImageFormat} {quad : State → Nat → Rgba} {s t : State}

/-- An operation has one outcome. -/
theorem Outputs.done {n : Nat} {f : Nat → Byte} (h : Outputs dec s n f) (ht : exec dec s = .next t) :
    OutputDone s t n f := by
  obtain ⟨t', ht', hdone⟩ := h
  cases ht.symm.trans ht'
  exact hdone

/-- The output of a successful decode is within `DST_CAP`. -/
theorem decodePlain_fits {pixel : View → Nat → Except OpError Rgba} (hexec : exec dec s = decodePlain pixel s)
    (h : exec dec s = .next t) (hdone : t.status = 1#32) : OutputFits s (4 * npix s) := by
  rcases finishOutput_next (hexec.symm.trans h) with ⟨bs, hbs, rfl⟩ | ⟨e, _, rfl⟩
  · have hlen : bs.length = npix s * 4 :=
      emitLoop_length (fun k chunk hk => by obtain ⟨c, rfl⟩ := map_ok hk; rfl) hbs
    rw [Nat.mul_comm, ← hlen]
    exact emitAll_fits hbs
  · exact absurd hdone (errStatus_ne_done e)

theorem DecodedExactly.srcLen (h : DecodedExactly dec fmt s t) : s.srcLen.toNat = needBytes fmt (npix s) := h.2.2

theorem DecodedExactly.srcLen_bytes {k : Nat} (h : DecodedExactly dec fmt s t) (hbits : bitsPerPixel fmt = 8 * k) :
    s.srcLen.toNat = k * npix s :=
  h.srcLen.trans (needBytes_bytes hbits _)

theorem exec_decI4 (p : Bool) (psz : PaletteSize) (s : State) :
    exec (.decI4 p psz) s = decodePlain (fun src q => pixelI4 src (s.position q)) s := rfl

theorem exec_decIA4 (p : Bool) (psz : PaletteSize) (s : State) :
    exec (.decIA4 p psz) s = decodePlain (fun src q => pixelIA4 s.config.ia4HighFirst src (s.position q)) s := rfl

theorem DecodesPlainly.done {pixel : View → Nat → Except OpError Rgba} (hplain : DecodesPlainly dec fmt quad)
    (hexec : exec dec s = decodePlain pixel s) (h : DecodedExactly dec fmt s t) :
    OutputDone s t (4 * npix s) (streamByte (quad s)) := by
  obtain ⟨ht, hstatus, hlen⟩ := h
  exact ((hplain s (decodePlain_fits hexec ht hstatus)).1 hlen.ge).done ht

theorem DecodesNibbles.done {pixel : View → Nat → Except OpError Rgba} (hnibbles : DecodesNibbles dec fmt quad)
    (hexec : exec dec s = decodePlain pixel s) (hlayout : LayoutStated s) (h : DecodedExactly dec fmt s t) :
    OutputDone s t (4 * npix s) (streamByte (quad s)) := by
  obtain ⟨ht, hstatus, hlen⟩ := h
  obtain ⟨hstated, -⟩ := hnibbles s (decodePlain_fits hexec ht hstatus)
  exact ((hstated hlayout).1 hlen.ge).done ht

end

/-! ## What an encode source holds of a decoded image -/

section
variable {s t u : State} {n q : Nat} {quad : Nat → Rgba}

theorem HoldsStream.channel {j : Nat} (hu : HoldsStream u t n) (ht : OutputDone s t (4 * n) (streamByte quad))
    (hq : q < n) (hj : j < 4) : u.byteAt .src (4 * q + j) = channel (quad q) j := by
  rw [hu.2 _ (by omega), ht.byteAt_channel hq hj]

theorem HoldsGray.gray (hu : HoldsGray u t n) (ht : OutputDone s t (4 * n) (streamByte quad)) (hq : q < n) :
    u.byteAt .src q = (quad q).r :=
  (hu.2 q hq).trans (ht.byteAt_channel (j := 0) hq (by decide))

theorem HoldsGrayAlpha.grayAlpha (hu : HoldsGrayAlpha u t n) (ht : OutputDone s t (4 * n) (streamByte quad))
    (hq : q < n) : u.byteAt .src (2 * q) = (quad q).r ∧ u.byteAt .src (2 * q + 1) = (quad q).a := by
  obtain ⟨hgray, halpha⟩ := hu.2 q hq
  exact ⟨hgray.trans (ht.byteAt_channel (j := 0) hq (by decide)), halpha.trans (ht.byteAt_channel hq (by decide))⟩

/-- A grey pixel of a stream has its grey as its intensity (R133, R136). -/
theorem HoldsStream.srcLuma_gray {i a : Nat → Nat} (hu : HoldsStream u t n)
    (ht : OutputDone s t (4 * n) (streamByte fun q => grayNumber (i q) (a q)))
    (hrule : u.config.lumaRule = .exactIntegers) (hq : q < n) (hi : i q < 256) : srcLuma u (4 * q) = i q := by
  have hr : u.byteAt .src (4 * q) = BitVec.ofNat 8 (i q) := hu.channel (j := 0) ht hq (by decide)
  have hg : u.byteAt .src (4 * q + 1) = BitVec.ofNat 8 (i q) := hu.channel ht hq (by decide)
  have hb : u.byteAt .src (4 * q + 2) = BitVec.ofNat 8 (i q) := hu.channel ht hq (by decide)
  rw [srcLuma, hr, hg, hb, hrule, ← luma_toNat, luma_exactIntegers_gray, BitVec.toNat_ofNat, Nat.mod_eq_of_lt hi]

end

/-! ## When an encode gives the image back -/

section
variable {enc : Instr} {s u : State}

theorem Outputs.reproduces_iff {f : Nat → Byte} (h : Outputs enc u s.srcLen.toNat f) :
    Reproduces enc u s ↔ ∀ k, k < s.srcLen.toNat → f k = s.byteAt .src k := by
  constructor
  · rintro ⟨v, hv, -, -, hbytes⟩ k hk
    rw [← (h.done hv).byteAt hk, hbytes k hk]
  · intro hbytes
    obtain ⟨v, hv, hdone⟩ := h
    refine ⟨v, hv, hdone.status, BitVec.eq_of_toNat_eq (hdone.dstLen s.srcLen.isLt), fun k hk => ?_⟩
    rw [hdone.byteAt hk, hbytes k hk]

/-- A verbatim arm gives back the image that SRC holds. -/
theorem reproduces_of_verbatim (hexec : exec enc u = encodeVerbatim u) (hlen : u.srcLen.toNat = s.srcLen.toNat)
    (hfits : OutputFits u s.srcLen.toNat) (hbytes : ∀ k, k < s.srcLen.toNat → u.byteAt .src k = s.byteAt .src k) :
    Reproduces enc u s := by
  rw [← hlen] at hfits
  have houtput := encodeVerbatim_outputs hexec hfits
  rw [hlen] at houtput
  exact houtput.reproduces_iff.mpr hbytes

/-- A group arm whose groups are as many as the image takes. -/
theorem EncodesGroups.reproduces_iff {k m : Nat} {f : Nat → Nat → Byte} (h : EncodesGroups enc u k m f)
    (hlen : u.srcLen.toNat / k * m = s.srcLen.toNat) (hfits : OutputFits u s.srcLen.toNat) :
    Reproduces enc u s ↔ ∀ n, n < s.srcLen.toNat → f (k * (n / m)) (n % m) = s.byteAt .src n := by
  rw [← hlen] at hfits
  have houtput := h hfits
  rw [hlen] at houtput
  exact houtput.reproduces_iff

/-- A group arm of one byte per group, as the numbers of the bytes. -/
theorem EncodesGroups.reproduces_iff_byte {k : Nat} {f : Nat → Byte} (h : EncodesGroups enc u k 1 (fun o _ => f o))
    (hlen : u.srcLen.toNat / k = s.srcLen.toNat) (hfits : OutputFits u s.srcLen.toNat) :
    Reproduces enc u s ↔ ∀ n, n < s.srcLen.toNat → f (k * n) = s.byteAt .src n := by
  simp only [h.reproduces_iff ((Nat.mul_one _).trans hlen) hfits, Nat.div_one]

end

/-! ## RGBA32, RGBA16 and I8 -/

/-- Four bytes in a row as the channels of a pixel. -/
theorem channel_bytes (b : Nat → Byte) (o : Nat) {j : Nat} (hj : j < 4) :
    channel (Rgba.mk (b o) (b (o + 1)) (b (o + 2)) (b (o + 3))) j = b (o + j) :=
  match j, hj with
  | 0, _ => rfl
  | 1, _ => rfl
  | 2, _ => rfl
  | 3, _ => rfl

/-- R135 in numbers. -/
theorem packedNumber_unpackedQuad {p : Nat} (hp : p < 2 ^ 16) :
    packedNumber (unpackedQuad p).r.toNat (unpackedQuad p).g.toNat (unpackedQuad p).b.toNat
      (unpackedQuad p).a.toNat = p := by
  have hround := congrArg BitVec.toNat (unpackThenPack (BitVec.ofNat 16 p))
  rwa [pack16_toNat, unpack16_eq_unpackedQuad, BitVec.toNat_ofNat, Nat.mod_eq_of_lt hp] at hround

theorem halfNumber_lt (s : State) (sp : Space) (o : Nat) : halfNumber s sp o < 2 ^ 16 := by
  unfold halfNumber
  omega

/-- The two bytes of a 16-bit value, high byte first (R55). -/
theorem halfNumber_byte (s : State) (sp : Space) (o : Nat) {j : Nat} (hj : j < 2) :
    (if j = 0 then BitVec.ofNat 8 (halfNumber s sp o / 256) else BitVec.ofNat 8 (halfNumber s sp o % 256)) =
      s.byteAt sp (o + j) := by
  have hhigh : halfNumber s sp o / 256 = (s.byteAt sp o).toNat := by unfold halfNumber; omega
  have hlow : halfNumber s sp o % 256 = (s.byteAt sp (o + 1)).toNat := by unfold halfNumber; omega
  match j, hj with
  | 0, _ => rw [if_pos rfl, hhigh, ← byte_eq_ofNat, Nat.add_zero]
  | 1, _ => rw [if_neg Nat.one_ne_zero, hlow, ← byte_eq_ofNat]

section
variable {p : Bool} {psz : PaletteSize} {s t u : State}

theorem rgba32_roundTrip (h : DecodedExactly (.decRGBA32 p psz) .rgba32 s t) (hu : HoldsStream u t (npix s))
    (hfits : OutputFits u s.srcLen.toNat) : Reproduces .encRGBA32RGBA8 u s := by
  have ht := (decodeRGBA32Result p psz).done rfl h
  have hlen : s.srcLen.toNat = 4 * npix s := h.srcLen_bytes rfl
  refine reproduces_of_verbatim rfl (hu.1.trans hlen.symm) hfits fun k hk => ?_
  have hk4 : k % 4 < 4 := Nat.mod_lt k (by decide)
  have hchannel := hu.channel (q := k / 4) ht (by omega) hk4
  rwa [channel_bytes (s.byteAt .src) _ hk4, Nat.div_add_mod] at hchannel

theorem rgba16_roundTrip (h : DecodedExactly (.decRGBA16 p psz) .rgba16 s t) (hu : HoldsStream u t (npix s))
    (hfits : OutputFits u s.srcLen.toNat) : Reproduces .encRGBA16RGBA8 u s := by
  have ht := (decodeRGBA16Result p psz).done rfl h
  have hlen : s.srcLen.toNat = 2 * npix s := h.srcLen_bytes rfl
  have hgroups : u.srcLen.toNat / 4 * 2 = s.srcLen.toNat := by rw [hu.1]; omega
  refine ((encRGBA16RGBA8_encodes u).reproduces_iff hgroups hfits).mpr fun n hn => ?_
  have hq : n / 2 < npix s := by omega
  have hr : u.byteAt .src (4 * (n / 2)) = _ := hu.channel (j := 0) ht hq (by decide)
  have hpacked : packedNumber (srcNumber u (4 * (n / 2))) (srcNumber u (4 * (n / 2) + 1))
      (srcNumber u (4 * (n / 2) + 2)) (srcNumber u (4 * (n / 2) + 3)) = halfNumber s .src (2 * (n / 2)) := by
    simp only [srcNumber]
    rw [hr, hu.channel ht hq (by decide), hu.channel ht hq (by decide), hu.channel ht hq (by decide)]
    exact packedNumber_unpackedQuad (halfNumber_lt s .src _)
  dsimp only
  rw [hpacked, halfNumber_byte s .src _ (Nat.mod_lt n (by decide)), Nat.div_add_mod]

theorem i8_roundTrip (h : DecodedExactly (.decI8 p psz) .i8 s t) (hu : HoldsStream u t (npix s))
    (hfits : OutputFits u s.srcLen.toNat) (hrule : u.config.lumaRule = .exactIntegers) :
    Reproduces .encI8RGBA8 u s := by
  have ht := (decodeI8Result p psz).done rfl h
  have hlen : s.srcLen.toNat = npix s := (h.srcLen_bytes (k := 1) rfl).trans (Nat.one_mul _)
  have hgroups : u.srcLen.toNat / 4 = s.srcLen.toNat := by rw [hu.1]; omega
  refine ((encI8RGBA8_encodes u).reproduces_iff_byte hgroups hfits).mpr fun n hn => ?_
  rw [hu.srcLuma_gray ht hrule (hlen ▸ hn) (s.byteAt .src n).isLt]
  exact (byte_eq_ofNat _).symm

end

/-- Settles O56: a verbatim copy of the channels, the packing of an unpacked colour, and the intensity of a grey. -/
theorem colourRoundTrips : Obligations.ColourRoundTrips :=
  fun _ _ _ _ _ => ⟨rgba32_roundTrip, rgba16_roundTrip, i8_roundTrip⟩

/-! ## Nibbles of an image and the folds that join them again -/

theorem ofNat_byte_toNat {n : Nat} (hn : n < 256) : (BitVec.ofNat 8 n).toNat = n :=
  (BitVec.toNat_ofNat n 8).trans (Nat.mod_eq_of_lt hn)

theorem nibbleNumber_even (s : State) (k : Nat) : nibbleNumber s (2 * k) = srcNumber s k / 16 := by
  simp [nibbleNumber, srcNumber]

theorem nibbleNumber_odd (s : State) (k : Nat) : nibbleNumber s (2 * k + 1) = srcNumber s k % 16 := by
  have hdiv : (2 * k + 1) / 2 = k := by omega
  simp [nibbleNumber, srcNumber, hdiv]

theorem nibbleNumberLowFirst_even (s : State) (k : Nat) : nibbleNumberLowFirst s (2 * k) = srcNumber s k % 16 := by
  simp [nibbleNumberLowFirst, srcNumber]

theorem nibbleNumberLowFirst_odd (s : State) (k : Nat) : nibbleNumberLowFirst s (2 * k + 1) = srcNumber s k / 16 := by
  have hdiv : (2 * k + 1) / 2 = k := by omega
  simp [nibbleNumberLowFirst, srcNumber, hdiv]

/-- A pixel of a 4-bit format is below 16 in either order of the halves. -/
theorem orderedNibble_lt (s : State) (highFirst : Bool) (q : Nat) :
    (if highFirst then nibbleNumber s q else nibbleNumberLowFirst s q) < 16 := by
  have hbyte := (s.byteAt .src (q / 2)).isLt
  cases highFirst with
  | true => exact nibbleNumber_lt s q
  | false =>
    simp only [nibbleNumberLowFirst, Bool.false_eq_true, if_false]
    split <;> omega

/-- A byte is its high nibble beside its low one, and beside no other. -/
theorem ofNat_nibbles_iff (s : State) (k : Nat) {b : Nat} (hb : b < 16) :
    BitVec.ofNat 8 (srcNumber s k / 16 * 16 + b) = s.byteAt .src k ↔ srcNumber s k % 16 = b := by
  have hbyte : srcNumber s k < 256 := (s.byteAt .src k).isLt
  rw [← BitVec.toNat_inj, BitVec.toNat_ofNat]
  change _ = srcNumber s k ↔ _
  omega

theorem ofNat_nibbles (s : State) (k : Nat) :
    BitVec.ofNat 8 (srcNumber s k / 16 * 16 + srcNumber s k % 16) = s.byteAt .src k :=
  (ofNat_nibbles_iff s k (Nat.mod_lt _ (by decide))).mpr rfl

/-- Two nibbles do not overlap. -/
theorem mul_sixteen_or {a b : Nat} (hb : b < 16) : a * 16 ||| b = a * 16 + b := by
  rw [Nat.mul_comm]
  exact (Nat.two_pow_add_eq_or_of_lt (i := 4) hb a).symm

theorem foldNumber_nibbles (a b : Nat) : foldNumber (a * 16) (b * 16) = BitVec.ofNat 8 (a * 16 + b) := by
  rw [foldNumber, Nat.mul_div_cancel _ (by decide), Nat.mul_div_cancel _ (by decide)]

theorem indexFoldNumber_nibbles {a b : Nat} (ha : a < 16) (hb : b < 16) :
    indexFoldNumber a b = BitVec.ofNat 8 (a * 16 + b) := by
  rw [indexFoldNumber, Nat.mod_eq_of_lt (by omega), mul_sixteen_or hb]

/-- R170 and R214: the grey and the alpha of an IA4 pixel give its nibble back. -/
theorem ia4Number_channels (n : Nat) : ia4Number (n / 2 * 32) (n % 2 * 255) = n := by
  unfold ia4Number
  split <;> omega

section
variable {p : Bool} {psz : PaletteSize} {s t u : State}

/-- A 4-bit image of an even pixel count has two pixels in every byte (R58). -/
theorem npix_of_nibbles {fmt : ImageFormat} (hbits : bitsPerPixel fmt = 4)
    (hlen : s.srcLen.toNat = needBytes fmt (npix s)) (heven : npix s % 2 = 0) : npix s = 2 * s.srcLen.toNat := by
  rw [hlen, needBytes_nibbles hbits]
  omega

/-! ## The grey and grey-alpha channels of I and IA images -/

theorem i8_grayRoundTrip (h : DecodedExactly (.decI8 p psz) .i8 s t) (hu : HoldsGray u t (npix s))
    (hfits : OutputFits u s.srcLen.toNat) : Reproduces .encI8G8 u s := by
  have ht := (decodeI8Result p psz).done rfl h
  have hlen : s.srcLen.toNat = npix s := (h.srcLen_bytes (k := 1) rfl).trans (Nat.one_mul _)
  refine reproduces_of_verbatim rfl (hu.1.trans hlen.symm) hfits fun k hk => ?_
  exact (hu.gray ht (hlen ▸ hk)).trans (byte_eq_ofNat _).symm

theorem i4_grayRoundTrip (h : DecodedExactly (.decI4 p psz) .i4 s t) (heven : npix s % 2 = 0)
    (hlayout : LayoutStated s) (hu : HoldsGray u t (npix s)) (hfits : OutputFits u s.srcLen.toNat) :
    Reproduces .encI4G8 u s := by
  have ht := (decodeI4Result p psz).done (exec_decI4 p psz s) hlayout h
  have hnpix := npix_of_nibbles rfl h.srcLen heven
  have hgroups : u.srcLen.toNat / 2 = s.srcLen.toNat := by rw [hu.1]; omega
  have hgray {q : Nat} (hq : q < npix s) : srcNumber u q = nibbleNumber s q * 16 := by
    have hlt := nibbleNumber_lt s q
    rw [srcNumber, hu.gray ht hq]
    exact ofNat_byte_toNat (by omega)
  refine ((encI4G8_encodes u).reproduces_iff_byte hgroups hfits).mpr fun k hk => ?_
  rw [hgray (by omega), hgray (by omega), foldNumber_nibbles, nibbleNumber_even, nibbleNumber_odd, ofNat_nibbles]

theorem ia16_grayAlphaRoundTrip (h : DecodedExactly (.decIA16 p psz) .ia16 s t) (hu : HoldsGrayAlpha u t (npix s))
    (hfits : OutputFits u s.srcLen.toNat) : Reproduces .encIA16GA8 u s := by
  have ht := (decodeIA16Result p psz).done rfl h
  have hlen : s.srcLen.toNat = 2 * npix s := h.srcLen_bytes rfl
  refine reproduces_of_verbatim rfl (hu.1.trans hlen.symm) hfits fun k hk => ?_
  obtain ⟨q, hk'⟩ := Nat.even_or_odd' k
  obtain ⟨hgray, halpha⟩ := hu.grayAlpha ht (q := q) (by omega)
  rcases hk' with rfl | rfl
  · exact hgray.trans (byte_eq_ofNat _).symm
  · exact halpha.trans (byte_eq_ofNat _).symm

theorem ia8_grayAlphaRoundTrip (h : DecodedExactly (.decIA8 p psz) .ia8 s t) (hu : HoldsGrayAlpha u t (npix s))
    (hfits : OutputFits u s.srcLen.toNat) : Reproduces .encIA8GA8 u s := by
  have ht := (decodeIA8Result p psz).done rfl h
  have hlen : s.srcLen.toNat = npix s := (h.srcLen_bytes (k := 1) rfl).trans (Nat.one_mul _)
  have hgroups : u.srcLen.toNat / 2 = s.srcLen.toNat := by rw [hu.1]; omega
  refine ((encIA8GA8_encodes u).reproduces_iff_byte hgroups hfits).mpr fun k hk => ?_
  obtain ⟨hgray, halpha⟩ := hu.grayAlpha ht (hlen ▸ hk)
  have hbyte : srcNumber s k < 256 := (s.byteAt .src k).isLt
  have hg : srcNumber u (2 * k) = srcNumber s k / 16 * 16 := by
    rw [srcNumber, hgray]
    exact ofNat_byte_toNat (by omega)
  have ha : srcNumber u (2 * k + 1) = srcNumber s k % 16 * 16 := by
    rw [srcNumber, halpha]
    exact ofNat_byte_toNat (by omega)
  dsimp only
  rw [hg, ha, Nat.mul_div_cancel _ (by decide), Nat.mul_div_cancel _ (by decide), ite_self,
    mul_sixteen_or (Nat.mod_lt _ (by decide)), ofNat_nibbles]

theorem ia4_grayAlphaRoundTrip (h : DecodedExactly (.decIA4 p psz) .ia4 s t) (heven : npix s % 2 = 0)
    (hlayout : LayoutStated s) (hu : HoldsGrayAlpha u t (npix s))
    (horder : u.config.ia4HighFirst = s.config.ia4HighFirst) (hfits : OutputFits u s.srcLen.toNat) :
    Reproduces .encIA4GA8 u s := by
  have ht := (decodeIA4Result p psz).done (exec_decIA4 p psz s) hlayout h
  have hnpix := npix_of_nibbles rfl h.srcLen heven
  have hgroups : u.srcLen.toNat / 4 = s.srcLen.toNat := by rw [hu.1]; omega
  have hnibble {q : Nat} (hq : q < npix s) : ia4Number (srcNumber u (2 * q)) (srcNumber u (2 * q + 1)) =
      if s.config.ia4HighFirst then nibbleNumber s q else nibbleNumberLowFirst s q := by
    obtain ⟨hgray, halpha⟩ := hu.grayAlpha ht hq
    have hlt := orderedNibble_lt s s.config.ia4HighFirst q
    rw [srcNumber, srcNumber, hgray, halpha]
    dsimp only [grayNumber]
    rw [ofNat_byte_toNat (by omega), ofNat_byte_toNat (by omega), ia4Number_channels]
  refine ((encIA4GA8_encodes u).reproduces_iff_byte hgroups hfits).mpr fun k hk => ?_
  have hfirst := hnibble (q := 2 * k) (by omega)
  have hsecond : ia4Number (srcNumber u (2 * (2 * k) + 2)) (srcNumber u (2 * (2 * k) + 3)) = _ :=
    hnibble (q := 2 * k + 1) (by omega)
  have hoffset : 4 * k = 2 * (2 * k) := Nat.mul_assoc 2 2 k
  dsimp only
  rw [hoffset, hfirst, hsecond, horder]
  cases s.config.ia4HighFirst with
  | true => simpa only [if_true, nibbleNumber_even, nibbleNumber_odd] using ofNat_nibbles s k
  | false =>
    simpa only [Bool.false_eq_true, if_false, nibbleNumberLowFirst_even, nibbleNumberLowFirst_odd] using
      ofNat_nibbles s k

end

/-- Settles O57: in each format the channels determine the byte or the nibble they were decoded from. -/
theorem grayRoundTrips : Obligations.GrayRoundTrips :=
  fun _ _ _ _ _ => ⟨i8_grayRoundTrip, i4_grayRoundTrip, ia16_grayAlphaRoundTrip, ia8_grayAlphaRoundTrip,
    ia4_grayAlphaRoundTrip⟩

/-! ## The stream of an I4 image (R208, C4) -/

section
variable {p : Bool} {psz : PaletteSize} {s t u : State}

/-- What `ENC.I4.RGBA8` makes of the stream: the first nibble beside the one it reads second. -/
theorem i4Stream_reproduces_iff (h : DecodedExactly (.decI4 p psz) .i4 s t) (heven : npix s % 2 = 0)
    (hlayout : LayoutStated s) (hu : HoldsStream u t (npix s)) (hrule : u.config.lumaRule = .exactIntegers)
    (hfits : OutputFits u s.srcLen.toNat) : Reproduces .encI4RGBA8 u s ↔
      ∀ k, k < s.srcLen.toNat →
        srcNumber s k % 16 = if u.config.i4RgbaDoubleRead then srcNumber s k / 16 else srcNumber s k % 16 := by
  have ht := (decodeI4Result p psz).done (exec_decI4 p psz s) hlayout h
  have hnpix := npix_of_nibbles rfl h.srcLen heven
  have hgroups : u.srcLen.toNat / 8 = s.srcLen.toNat := by rw [hu.1]; omega
  have hluma {q : Nat} (hq : q < npix s) : srcLuma u (4 * q) = nibbleNumber s q * 16 := by
    have hlt := nibbleNumber_lt s q
    exact hu.srcLuma_gray ht hrule hq (by omega)
  rw [(encI4RGBA8_encodes u).reproduces_iff_byte hgroups hfits]
  refine forall₂_congr fun k hk => ?_
  have hfirst := hluma (q := 2 * k) (by omega)
  have hsecond := hluma (q := 2 * k + 1) (by omega)
  rw [← Nat.mul_assoc, nibbleNumber_even] at hfirst
  rw [Nat.mul_succ, ← Nat.mul_assoc, nibbleNumber_odd] at hsecond
  rw [hfirst, hsecond, ← apply_ite (· * 16), foldNumber_nibbles, ofNat_nibbles_iff]
  have hbyte : srcNumber s k < 256 := (s.byteAt .src k).isLt
  split <;> omega

end

/-- Settles O58: the second nibble written is the first one again with the double read, and else the image's. -/
theorem i4StreamRoundTrip : Obligations.I4StreamRoundTrip := by
  intro p psz s t u h heven hlayout hu hrule hfits
  rw [i4Stream_reproduces_iff h heven hlayout hu hrule hfits]
  refine ⟨fun hread => ?_, fun hread => ?_⟩
  · simp [hread]
  · simp [hread, eq_comm]

/-! ## The indices of CI images -/

theorem ci4_indexRoundTrip {s u : State} (heven : npix s % 2 = 0) (hlen : s.srcLen.toNat = needBytes .ci4 (npix s))
    (hulen : u.srcLen.toNat = npix s) (hindex : ∀ q, q < npix s → srcNumber u q = nibbleNumber s q)
    (hfits : OutputFits u s.srcLen.toNat) : Reproduces .encCI4IDX8 u s := by
  have hnpix := npix_of_nibbles rfl hlen heven
  refine ((encCI4IDX8_encodes u).reproduces_iff_byte (by omega) hfits).mpr fun k hk => ?_
  rw [hindex _ (by omega), hindex _ (by omega), indexFoldNumber_nibbles (nibbleNumber_lt s _) (nibbleNumber_lt s _),
    nibbleNumber_even, nibbleNumber_odd, ofNat_nibbles]

/-- Settles O59: two indices below 16 fold into the byte they came from, and the packed bytes are copied. -/
theorem indexRoundTrips : Obligations.IndexRoundTrips := by
  refine fun s u => ⟨ci4_indexRoundTrip, fun hlen hbytes hfits => ?_⟩
  have hlen' := congrArg BitVec.toNat hlen
  exact ⟨reproduces_of_verbatim rfl hlen' hfits hbytes, reproduces_of_verbatim rfl hlen' hfits hbytes⟩

end Sys2Proof.Machine

/-! # Container metadata (44_container_adapter R250)

Each query is one of the two rows of R250, so what a query returns is proved once for each row. -/

namespace Sys2Proof.Machine

section
variable {i : Instr} {s : State}

/-- R250, first row: `RGBA` (code 3) at depth 8, no palette. -/
theorem metaDirect_returns (hexec : exec i s = metaDirect s) : Returns i s 0x68#32 :=
  have hvalue : metaResult false .rgba 8 = 0x68#32 := by decide
  returns_of_value hexec hvalue

/-- R250, second row: `IDX` (code 4) at depth 8, with a palette. -/
theorem metaIndexed_returns (hexec : exec i s = metaIndexed s) : Returns i s 0x188#32 :=
  have hvalue : metaResult true .idx 8 = 0x188#32 := by decide
  returns_of_value hexec hvalue

end

/-- Settles O55: the words are those of class 4, and only the two CI queries are of the indexed row. -/
theorem metadataResults : Obligations.MetadataResults :=
  ⟨decode_metaWord .i4, decode_metaWord .i8, decode_metaWord .ia4, decode_metaWord .ia8, decode_metaWord .ia16,
    decode_metaWord .ci4, decode_metaWord .ci8, decode_metaWord .rgba16, decode_metaWord .rgba32,
    fun _ => ⟨metaDirect_returns rfl, metaDirect_returns rfl, metaDirect_returns rfl, metaDirect_returns rfl,
      metaDirect_returns rfl, metaIndexed_returns rfl, metaIndexed_returns rfl, metaDirect_returns rfl,
      metaDirect_returns rfl⟩⟩

end Sys2Proof.Machine

/-! # Errors (60_exceptions R260 to R271)

`raiseError_entered` says what taking an error does, and `exec_ending` that no operation ends in `ERR` otherwise. Which
error a decode under a finite `DST_CAP` takes is decided at the first pixel that is an error or does not fit. -/

namespace Sys2Proof.Machine

/-! ## Leaving and taking an error (R29, R270, R271) -/

/-- An issue sees the state R29 prepares, and nothing of what that overwrites. -/
theorem issue_congr {c : Word} {s u : State} (h : beginOperation c s = beginOperation c u) : issue c s = issue c u := by
  simp only [issue, h]

/-- Settles O15: `beginOperation` overwrites the four registers. -/
theorem issueForgetsTheEarlierOutcome : Obligations.IssueForgetsTheEarlierOutcome := by
  intro s c rest cmd status errInfo dstLen hhost
  exact Eq.trans (step_pending hhost) (Eq.trans (issue_congr rfl) (step_pending hhost).symm)

/-- The codes an operation can record: all but `IllegalCommand` (R260). -/
theorem code_toNat_bounds {e : OpError} (h : e ≠ .illegalCommand) : 1 ≤ e.code.toNat ∧ e.code.toNat ≤ 5 := by
  cases e with
  | illegalCommand => exact absurd rfl h
  | truncatedInput | missingPalette | invalidSourceShape | paletteIndexOutOfRange | io => simp [OpError.code]

/-- Settles O16: of the three endings only `raiseError` is in `ERR`, with an error of the operation's own. -/
theorem errorEntryFrame : Obligations.ErrorEntryFrame := by
  intro i s t h herr
  rcases exec_ending h with ⟨bs, _, _, rfl⟩ | ⟨v, _, rfl⟩ | ⟨e, ⟨hkind, hinfo⟩, rfl⟩
  · exact absurd herr doneStatus_ne_err
  · exact absurd herr doneStatus_ne_err
  · obtain ⟨hlow, hhigh⟩ := code_toNat_bounds hkind
    have hcode : e.code.toNat = 3 ↔ e.code = 3 := BitVec.toNat_inj (y := 3#3)
    refine ⟨e.code.toNat, hlow, hhigh, ?_⟩
    simp only [hcode, ← hinfo]
    exact raiseError_entered e s

/-! ## `MissingPalette` (R262) -/

/-- The palette-present bit as the number of R80. -/
theorem pField_toNat (c : Word) : (pField c).toNat = c.toNat / 2 ^ 15 % 2 := by
  simp [pField, Nat.shiftRight_eq_div_pow]

/-- A word that selects a decode carries the operation's `P`. -/
theorem pField_of_decode {c : Word} {fmt : ImageFormat} {p : Bool} {psz : PaletteSize}
    (h : decode c = .ok (decInstr fmt p psz)) : pField c = BitVec.ofBool p := by
  rw [← encode_of_decode h, encode_decInstr, decWord, pField_commandWord]

/-- Settles O41: with `P = 0` the word's operation has no palette, and such a decode reads nothing. -/
theorem missingPaletteComesFirst : Obligations.MissingPaletteComesFirst := by
  intro c i s h hfmt hp
  have hfails {fmt : ImageFormat} (hi : decodedFormat i = some fmt)
      (hraises : ∀ psz, exec (decInstr fmt false psz) s = finishOutput (.error .missingPalette) s) : Fails i s 2 0 := by
    obtain ⟨p, psz, rfl⟩ := eq_decInstr_of_decodedFormat hi
    rw [← pField_toNat, pField_of_decode h] at hp
    cases p with
    | true => cases hp
    | false => exact fails_of_error (hraises psz)
  exact hfmt.elim (hfails · fun _ => rfl) (hfails · fun _ => rfl)

/-! ## An output loop that a finite capacity stops (R175, R266, R267) -/

/-- What ends a loop ends every longer one. -/
theorem emitLoop_error_of_le {cap : Option Nat} {item : Nat → Except OpError (List Byte)} {m n j dp : Nat}
    {e : OpError} (hmn : m ≤ n) (h : emitLoop cap item m j dp = .error e) : emitLoop cap item n j dp = .error e := by
  induction m generalizing n j dp with
  | zero => cases h
  | succ m ih =>
    obtain ⟨n, rfl⟩ := Nat.exists_eq_succ_of_ne_zero (Nat.ne_zero_of_lt hmn)
    simp only [emitLoop] at h ⊢
    split at h
    · exact h
    · split at h
      · rename_i hfits
        split at h
        · rename_i hrest
          cases h
          rw [if_pos hfits, ih (Nat.le_of_succ_le_succ hmn) hrest]
        · cases h
      · rename_i hfull
        rwa [if_neg hfull]

section
variable {i : Instr} {s : State} {c : Nat} {pixel : Nat → Except OpError Rgba} {quad : Nat → Rgba}

/-- A decode whose pixels are quadruples up to the one that does not fit ends in `Io` there. -/
theorem fails_io_of_pixels (hexec : exec i s = finishOutput (decodePixels s.config.dstCap s.pixelCount pixel) s)
    (hcap : s.config.dstCap = some c) (hc : c < 4 * npix s) (hpixel : ∀ q, q ≤ c / 4 → pixel q = .ok (quad q)) :
    Fails i s 5 0 := by
  have hlen := flatMap_chunks_length (f := fun q => quadBytes (quad q)) (m := 4) (fun _ => rfl) 0 (c / 4 + 1)
  have hfull : fits s.config.dstCap (0 + ((List.range' 0 (c / 4 + 1)).flatMap fun q => quadBytes (quad q)).length) =
      false := by
    rw [hlen, hcap, fits, decide_eq_false_iff_not]
    omega
  have hstop : emitLoop s.config.dstCap (fun q => (pixel q).map quadBytes) (c / 4 + 1) 0 0 = .error .io :=
    emitLoop_io (fun q _ hq => by rw [hpixel q (by omega)]; rfl) (fits_zero _) hfull
  have hcount : c / 4 + 1 ≤ s.pixelCount := (by omega : c / 4 < npix s)
  exact fails_of_error (e := .io) (hexec.trans (congrArg (finishOutput · s) (emitLoop_error_of_le hcount hstop)))

/-- A pixel that is an error comes before the capacity, also where it is the one that does not fit. -/
theorem fails_of_pixel_le_capacity {q : Nat} {e : OpError}
    (hexec : exec i s = finishOutput (decodePixels s.config.dstCap s.pixelCount pixel) s)
    (hcap : s.config.dstCap = some c) (hc : c < 4 * npix s) (hq : q ≤ c / 4)
    (hpixel : ∀ k, k < q → pixel k = .ok (quad k)) (herror : pixel q = .error e) : Fails i s e.code.toNat e.info := by
  have hcount : q < npix s := by omega
  have hfits : OutputFits s (q * 4) := by
    rw [OutputFits, hcap, fits, decide_eq_true_eq]
    omega
  exact fails_of_firstError (f := fun q => quadBytes (quad q)) hexec hcount (fun k hk => by rw [hpixel k hk]; rfl)
    (fun _ => rfl) hfits (by rw [herror]; rfl)

/-! ## A decode without a palette -/

/-- The order of R267 for pixels whose only error is a short read. -/
theorem readsPixels_errorOrder {present : Nat → Prop}
    (hexec : exec i s = finishOutput (decodePixels s.config.dstCap s.pixelCount pixel) s)
    (hreads : ReadsPixels present pixel quad) (hcap : s.config.dstCap = some c) (hc : c < 4 * npix s) :
    ((∀ q, q ≤ c / 4 → present q) → Fails i s 5 0) ∧ (∀ q, q ≤ c / 4 → ¬ present q → Fails i s 1 0) := by
  refine ⟨fun hall => fails_io_of_pixels hexec hcap hc fun q hq => hreads.ok q (hall q hq), fun q hq hmissing => ?_⟩
  obtain ⟨j, hjq, hj, hbefore⟩ := exists_first_not hmissing
  exact fails_of_pixel_le_capacity (e := .truncatedInput) hexec hcap hc (hjq.trans hq)
    (fun k hk => hreads.ok k (hbefore k hk)) (hreads.short j hj)

end

section
variable {fmt : ImageFormat} {s : State} {pixel : Nat → Except OpError Rgba} {quad : Nat → Rgba}

theorem ReadsPixels.pixelPresent_bytes {k : Nat} (hbits : bitsPerPixel fmt = 8 * k)
    (h : ReadsPixels (fun q => k * q + k ≤ s.srcLen.toNat) pixel quad) : ReadsPixels (PixelPresent fmt s) pixel quad :=
  ⟨fun _ hq => h.ok _ ((Machine.pixelPresent_bytes hbits).mp hq),
    fun _ hq => h.short _ (mt (Machine.pixelPresent_bytes hbits).mpr hq)⟩

theorem ReadsPixels.pixelPresent_nibbles (hbits : bitsPerPixel fmt = 4)
    (h : ReadsPixels (fun p => p / 2 < s.srcLen.toNat) pixel quad) :
    ReadsPixels (PixelPresent fmt s) (fun q => pixel (s.position q)) (fun q => quad (s.position q)) :=
  ⟨fun _ hq => h.ok _ ((Machine.pixelPresent_nibbles hbits).mp hq),
    fun _ hq => h.short _ (mt (Machine.pixelPresent_nibbles hbits).mpr hq)⟩

/-- The seven formats without a palette: a pixel is missing where `PixelPresent` says so, and there only an error. -/
theorem exec_plainDecode (p : Bool) (psz : PaletteSize) (s : State) (hci4 : fmt ≠ .ci4) (hci8 : fmt ≠ .ci8) :
    ∃ pixel quad, exec (decInstr fmt p psz) s = finishOutput (decodePixels s.config.dstCap s.pixelCount pixel) s ∧
      ReadsPixels (PixelPresent fmt s) pixel quad := by
  cases fmt with
  | i4 => exact ⟨_, _, rfl, (nibble_readsPixels s true _).pixelPresent_nibbles rfl⟩
  | ia4 => exact ⟨_, _, rfl, (nibble_readsPixels s s.config.ia4HighFirst _).pixelPresent_nibbles rfl⟩
  | i8 => exact ⟨_, _, rfl, (read8_readsPixels s _).pixelPresent_bytes rfl⟩
  | ia8 => exact ⟨_, _, rfl, (read8_readsPixels s _).pixelPresent_bytes rfl⟩
  | ia16 => exact ⟨_, _, rfl, (pixelIA16_readsPixels s).pixelPresent_bytes rfl⟩
  | rgba16 => exact ⟨_, _, rfl, (pixelRGBA16_readsPixels s).pixelPresent_bytes rfl⟩
  | rgba32 => exact ⟨_, _, rfl, (pixelRGBA32_readsPixels s).pixelPresent_bytes rfl⟩
  | ci4 => exact absurd rfl hci4
  | ci8 => exact absurd rfl hci8

end

/-- Settles O42: the first missing pixel decides where it comes no later than pixel `c / 4`, and else the capacity. -/
theorem decodeBeyondCapacityOrder : Obligations.DecodeBeyondCapacityOrder := by
  intro i fmt s c hi hci4 hci8 hcap hc
  obtain ⟨p, psz, rfl⟩ := eq_decInstr_of_decodedFormat hi
  obtain ⟨pixel, quad, hexec, hreads⟩ := exec_plainDecode p psz s hci4 hci8
  exact readsPixels_errorOrder hexec hreads hcap hc

/-! ## An indexed decode -/

/-- The order of R267 for a format with a palette. -/
theorem indexedErrorOrder_of_looksUp {i : Instr} {psz : PaletteSize} {present : State → Nat → Prop}
    {index : State → Nat → Nat} {pixel : State → List Rgba → View → Nat → Except OpError Rgba}
    (hexec : ∀ s, exec i s = decodeIndexed (pixel s) true psz s)
    (hlook : ∀ s, LooksUp (entries s.config psz) (present s) (index s)
      (pixel s (paletteTable (entries s.config psz) s.palView) s.srcView) (paletteEntry s.palView)) :
    IndexedErrorOrder i psz present index := by
  intro s c hcap hc hpal
  have hloop := (hexec s).trans (decodeIndexed_palette (pixel s) hpal)
  have hentry (q : Nat) (h : present s q ∧ index s q < entries s.config psz) := h.elim ((hlook s).ok q)
  refine ⟨fun hall => fails_io_of_pixels hloop hcap hc fun q hq => hentry q (hall q hq),
    fun q hq hbefore => ⟨fun hmissing => ?missing, fun hpresent hrange => ?range⟩⟩
  case missing =>
    exact fails_of_pixel_le_capacity (e := .truncatedInput) hloop hcap hc hq (fun k hk => hentry k (hbefore k hk))
      ((hlook s).short q hmissing)
  case range =>
    exact fails_of_pixel_le_capacity (e := .paletteIndexOutOfRange) hloop hcap hc hq
      (fun k hk => hentry k (hbefore k hk)) ((hlook s).outOfRange q hpresent hrange)

/-- Settles O43: the pixel loop of either format, whose pixels look up a nibble or a byte. -/
theorem indexedDecodeBeyondCapacityOrder : Obligations.IndexedDecodeBeyondCapacityOrder := by
  refine fun psz => ⟨?ci4, ?ci8⟩
  case ci4 =>
    exact indexedErrorOrder_of_looksUp (pixel := fun s tbl src q => pixelCI4 tbl src (s.position q)) (fun _ => rfl)
      fun _ => ⟨fun _ => pixelCI4_ok, fun _ h => pixelCI4_short (Nat.not_lt.mp h) _, fun _ => pixelCI4_outOfRange⟩
  case ci8 =>
    exact indexedErrorOrder_of_looksUp (pixel := fun _ => pixelCI8) (fun _ => rfl)
      fun _ => ⟨fun _ => pixelCI8_ok, fun _ h => pixelCI8_short (Nat.not_lt.mp h) _, fun _ => pixelCI8_outOfRange⟩

end Sys2Proof.Machine

/-! # Reset between operations (70_reset_and_hazards R290, R291) -/

namespace Sys2Proof.Machine

theorem register_resetBlock {n : Nat} (h : n ≤ 9) (s : State) : (resetBlock s).register n = some 0#32 := by
  interval_cases n <;> rfl

@[simp] theorem memory_resetBlock (s : State) (sp : Space) :
    (resetBlock s).memory sp = Memory.unwritten s.freeIdx := by
  cases sp <;> rfl

/-- Settles O2: the step is `resetBlock` with the action taken off the queue. -/
theorem resetActionZeroesTheBlock : Obligations.ResetActionZeroesTheBlock := by
  intro s rest h
  exact ⟨resetBlock { s with host := rest }, step_pending h, fun _ hn => register_resetBlock hn _,
    fun sp k => by simp, fun sp => by simp, rfl, rfl, rfl, rfl⟩

end Sys2Proof.Machine
